-- ==== Sys2Proof/Word.lean ====
section
/-! DEFINITION. The word types of the block (00_scope.md R9, R10): a byte, a 16-bit half and a 32-bit host register word. -/

namespace Sys2Proof

/-- A byte, 8 bits, unsigned (R10). -/
abbrev Byte := BitVec 8

/-- A 16-bit field: a SensorID, the argument, a raw dust reading (R9, R62). -/
abbrev Half := BitVec 16

/-- A host register, 32 bits wide (R9, R27). -/
abbrev Word := BitVec 32

end Sys2Proof
end

