-- ==== Sys2Proof/Config.lean ====
section
/-! DEFINITION. The inputs of one clock cycle, the OPEN parameters of the block (92_eei_decisions.md) and its free values
(93_implementation_defined.md): constants with no body, so no proof can see what they are. -/

namespace Sys2Proof

/-- What the host and the channel do in ONE cycle of `clk`: the input ports of 10_state.md R20. The ports `rx_valid` and
`rx_data` are not listed as levels: the channel holds bytes in arrival order and delivers each once (R24, R25), so a cycle
says which bytes reach the channel (`rxArrive`) and whether it offers its oldest byte (`rxOffer`). Log entries 6, 7. -/
structure CycleIn where
  /-- `rst_n`: false resets the block at the end of this cycle (R230). -/
  rstN : Bool
  /-- `bus_addr`: byte offset of the host access. -/
  busAddr : BitVec 8
  /-- `bus_wdata`: host write data. -/
  busWdata : Word
  /-- `bus_we`: host write strobe. -/
  busWe : Bool
  /-- `bus_re`: host read strobe. -/
  busRe : Bool
  /-- `tx_ready`: the channel accepts the offered byte this cycle. -/
  txReady : Bool
  /-- The bytes that reach the channel this cycle, first one first. -/
  rxArrive : List Byte
  /-- The channel offers its oldest byte this cycle, if it holds one. -/
  rxOffer : Bool
  /-- `chan_open`: the channel is open and available for writing. -/
  chanOpen : Bool
  /-- The DISPATCH step is not yet taken in this cycle: R248 lets an engine step take more than one cycle. -/
  dispatchHold : Bool
  deriving DecidableEq, Repr, Inhabited

namespace Config

/-- RX_TIMEOUT_CYCLES, the length of a read window in cycles of `clk` (00_scope.md R8): an OPEN parameter, any positive
whole number of cycles (93 U3). Log entry 3. -/
opaque rxTimeoutParam : ℕ+

/-- RX_TIMEOUT_CYCLES as a number of cycles (R8). -/
def rxTimeoutCycles : Nat := rxTimeoutParam

/-- F_CLK in Hz: RX_TIMEOUT_CYCLES = 5 × F_CLK (R8), so each of the two parameters fixes the other. -/
def fClk : ℚ := (rxTimeoutCycles : ℚ) / 5

/-- BASE is 256-byte aligned (92, OPEN parameters); this is BASE / 256. Log entry 17. -/
opaque baseBlock : Nat

/-- BASE, the system address at which offset 0x00 of the host space sits (20_memory.md R67, 93 U4). -/
def base : Nat := 256 * baseBlock

/-- What host and channel do in the cycle of that number when the model's state lists nothing for it (93 U1, U2: draw).
Log entry 1. -/
opaque envInput : Nat → CycleIn

/-- What `tx_data` carries after the cycle of that number while `tx_valid = 0` (93 U7: any value). Log entry 8. -/
opaque txDataOff : Nat → Byte

/-- What `bus_rdata` carries in the cycle of that number when both strobes are 1 (93 U9: any value). Log entry 9. -/
opaque bothStrobesRdata : Nat → Word

end Config

end Sys2Proof
end

