-- ==== Sys2Proof/Syntax.lean ====
section
/-! DEFINITION. The instructions: one constructor per row of spec/opcode_table.json (30_encoding.md R90); and the sensor
commands the wire frames carry (R85, R86, R87). -/

namespace Sys2Proof

/-- The twelve operations of R90. None has an operand in its encoding (R88, R89): operands come from the latched
registers (10_state.md R42). -/
inductive Instr where
  | build
  | send
  | receive
  | getSleep
  | setSleep
  | getMode
  | setMode
  | firmwareVersion
  | queryDust
  | setId
  | setWorkingPeriod
  | getWorkingPeriod
  deriving DecidableEq, Repr

/-- What a command frame sent by a command operation asks of the sensor, with its operand (R86, R87). -/
inductive WireCommand where
  | getSleep
  | setSleep (sleep : Bool)
  | getMode
  | setMode (mode : Byte)
  | firmwareVersion
  | queryDust
  | setId (newId : Half)
  | setWorkingPeriod (period : Byte)
  | getWorkingPeriod
  deriving DecidableEq, Repr

end Sys2Proof
end

