-- ==== Sys2Proof/WellFormed.lean ====
section
/-! DEFINITION. The checks that make a term of the syntax one the spec gives a form to. -/

namespace Sys2Proof

/-- An operation has no operand in its encoding (30_encoding.md R88, R89), so every `Instr` is well formed. -/
def Instr.wf : Instr → Bool
  | .build | .send | .receive | .getSleep | .setSleep | .getMode | .setMode | .firmwareVersion | .queryDust | .setId
  | .setWorkingPeriod | .getWorkingPeriod => true

/-- A wire command is well formed when its operand is one the operation sends: a working period is at most 30
(00_scope.md R7 PERIOD_MAX, 30_encoding.md R87); every other operand ranges over its whole type. -/
def WireCommand.wf : WireCommand → Bool
  | .setWorkingPeriod period => decide (period.toNat ≤ 30)
  | .getSleep | .setSleep _ | .getMode | .setMode _ | .firmwareVersion | .queryDust | .setId _ | .getWorkingPeriod => true

/-- A payload fits a command frame when it has at most 12 bytes (00_scope.md R7 PAYLOAD_MAX, 40_framing.md R110). -/
def payloadFits (p : List Byte) : Bool := decide (p.length ≤ 12)

end Sys2Proof
end

