-- ==== Sys2Proof/Decode.lean ====
section
/-! DEFINITION. The encodings of 30_encoding.md: GO op codes (R88 to R92) decoded and encoded; the command frame (R80, R85,
R86, 40_framing.md R110) built from a wire command and read back (R87); the checks a response frame passes (41_receive.md
R135, R136). -/

namespace Sys2Proof

/-! ### Constants of the wire format (00_scope.md R7) -/

/-- HEAD, the first byte of both frame kinds. -/
abbrev HEAD : Byte := 0xAA#8
/-- CMD_ID, byte 1 of a command frame. -/
abbrev CMD_ID : Byte := 0xB4#8
/-- TAIL, the last byte of both frame kinds. -/
abbrev TAIL : Byte := 0xAB#8
/-- RESP_ACK, RESPONSE_ID of an ack response. -/
abbrev RESP_ACK : Byte := 0xC5#8
/-- RESP_DATA, RESPONSE_ID of a data response. -/
abbrev RESP_DATA : Byte := 0xC0#8
/-- BROADCAST, the SensorID that addresses all sensors. -/
abbrev BROADCAST : Half := 0xFFFF#16
/-- PAYLOAD_MAX. -/
abbrev PAYLOAD_MAX : Nat := 12
/-- SYNC_CAP, the most noise bytes a receive phase discards. -/
abbrev SYNC_CAP : Nat := 20
/-- PERIOD_MAX, in minutes. -/
abbrev PERIOD_MAX : Nat := 30

/-- A command frame T[0..18] (R80). -/
abbrev CommandFrame := Vector Byte 19
/-- A response frame F[0..9] (R81). -/
abbrev ResponseFrame := Vector Byte 10

/-! ### GO op codes -/

/-- Why a byte list is no operation, by name. -/
inductive DecodeError where
  /-- The byte is no op code (R92). -/
  | illegalOp (op : Byte)
  /-- There is no byte to read. -/
  | noByte
  deriving DecidableEq, Repr

/-- The operation a GO byte selects (R90); every other byte is illegal (R92). -/
def decodeOp (op : Byte) : Except DecodeError Instr :=
  match op with
  | 0x01#8 => .ok .build
  | 0x02#8 => .ok .send
  | 0x03#8 => .ok .receive
  | 0x10#8 => .ok .getSleep
  | 0x11#8 => .ok .setSleep
  | 0x12#8 => .ok .getMode
  | 0x13#8 => .ok .setMode
  | 0x14#8 => .ok .firmwareVersion
  | 0x15#8 => .ok .queryDust
  | 0x16#8 => .ok .setId
  | 0x17#8 => .ok .setWorkingPeriod
  | 0x18#8 => .ok .getWorkingPeriod
  | op => .error (.illegalOp op)

/-- Decoding a list of bytes: the first byte selects the operation, the rest stays (R88). Total on any bytes. -/
def decode (bs : List Byte) : Except DecodeError (Instr × List Byte) :=
  match bs with
  | [] => .error .noByte
  | op :: rest => (decodeOp op).map (fun i => (i, rest))

/-- The op code of a write of GO: bits [7:0] of the data; bits [31:8] are ignored (10_state.md R28). -/
def goByte (v : Word) : Byte := v.extractLsb' 0 8

/-- The op code of an operation (R90). -/
def opCode : Instr → Byte
  | .build => 0x01#8
  | .send => 0x02#8
  | .receive => 0x03#8
  | .getSleep => 0x10#8
  | .setSleep => 0x11#8
  | .getMode => 0x12#8
  | .setMode => 0x13#8
  | .firmwareVersion => 0x14#8
  | .queryDust => 0x15#8
  | .setId => 0x16#8
  | .setWorkingPeriod => 0x17#8
  | .getWorkingPeriod => 0x18#8

/-- The bytes of an operation: its one op-code byte (R88). -/
def encode (i : Instr) : List Byte := [opCode i]

/-- The data word of the bus write of GO that starts an operation (R96). -/
def encodeGo (i : Instr) : Word := (opCode i).setWidth 32

/-- The byte the table's `nbits` low bits of `w` give: `w`'s bits above `nbits` are 0, and the op code is bits [7:0]. -/
def tableByte (nbits w : Nat) : Byte := goByte (BitVec.ofNat 32 (w % 2 ^ nbits))

/-- The operation the decoder reads from a row's word, numbered as spec/opcode_table.json numbers it. -/
def decodeTableWord (nbits w : Nat) : Option Instr :=
  match decode [tableByte nbits w] with
  | .ok (i, _) => some i
  | .error _ => none

/-! ### Sums, byte pairs and padding -/

/-- sum8 (00_scope.md R12): the exact sum of the unsigned bytes, reduced modulo 256. -/
def sum8 (bs : List Byte) : Byte := BitVec.ofNat 8 (bs.map BitVec.toNat).sum

/-- hi(d) = d[15:8] (R14). -/
def hiByte (d : Half) : Byte := d.extractLsb' 8 8

/-- lo(d) = d[7:0] (R14). -/
def loByte (d : Half) : Byte := d.extractLsb' 0 8

/-- u16be(h, l) = h·256 + l (R10). -/
def u16be (h l : Byte) : Half := h ++ l

/-- u16le(l, h) = h·256 + l (R10). -/
def u16le (l h : Byte) : Half := h ++ l

/-- pad12(p): p followed by zero bytes up to 12 bytes (R14, 40_framing.md R111). -/
def pad12 (p : List Byte) : Vector Byte 12 := Vector.ofFn fun i => p.getD i.val 0

/-! ### Command frames -/

/-- frame(cmd, p, dest), the pure function that assembles a command frame (40_framing.md R110). -/
def frame (cmd : Byte) (p : List Byte) (dest : Half) : CommandFrame :=
  let q := pad12 p
  let cs := sum8 ([cmd] ++ q.toList ++ [hiByte dest, loByte dest])
  #v[HEAD, CMD_ID, cmd, q[0], q[1], q[2], q[3], q[4], q[5], q[6], q[7], q[8], q[9], q[10], q[11],
    hiByte dest, loByte dest, cs, TAIL]

/-- The command code T[2] of a wire command (30_encoding.md R85). -/
def commandCode : WireCommand → Byte
  | .getMode | .setMode _ => 2
  | .queryDust => 4
  | .setId _ => 5
  | .getSleep | .setSleep _ => 6
  | .firmwareVersion => 7
  | .setWorkingPeriod _ | .getWorkingPeriod => 8

/-- The payload of a wire command before padding (R86). -/
def commandPayload : WireCommand → List Byte
  | .getSleep | .getMode => [0, 0]
  | .setSleep sleep => [1, if sleep then 0 else 1]
  | .setMode mode => [1, mode]
  | .firmwareVersion | .queryDust => []
  | .setId newId => [0, 0, 0, 0, 0, 0, 0, 0, 0, 0, hiByte newId, loByte newId]
  | .setWorkingPeriod period => [1, period]
  | .getWorkingPeriod => [0]

/-- The command frame of a wire command for a destination (R80, R86). -/
def encodeCommand (c : WireCommand) (dest : Half) : CommandFrame := frame (commandCode c) (commandPayload c) dest

/-- Why 19 bytes are no command frame of a command operation, by name. -/
inductive FrameError where
  | badHead
  | badCommandId
  | badTail
  | badChecksum
  /-- No row of R87 has this command code and payload. -/
  | noSuchCommand
  deriving DecidableEq, Repr

/-- The bytes T[from], T[from+1], ... of a frame, `count` of them, are all 0. -/
def zeroBytes (t : CommandFrame) (start count : Nat) : Bool :=
  ((t.toList.drop start).take count).all (· == 0)

/-- The wire command that T[2..14] identify (R87), if a row matches. -/
def identify (t : CommandFrame) : Option WireCommand :=
  if t[2] = 6 ∧ t[3] = 0 ∧ zeroBytes t 4 11 then some .getSleep
  else if t[2] = 6 ∧ t[3] = 1 ∧ (t[4] = 0 ∨ t[4] = 1) ∧ zeroBytes t 5 10 then some (.setSleep (t[4] == 0))
  else if t[2] = 2 ∧ t[3] = 0 ∧ zeroBytes t 4 11 then some .getMode
  else if t[2] = 2 ∧ t[3] = 1 ∧ zeroBytes t 5 10 then some (.setMode t[4])
  else if t[2] = 7 ∧ zeroBytes t 3 12 then some .firmwareVersion
  else if t[2] = 4 ∧ zeroBytes t 3 12 then some .queryDust
  else if t[2] = 5 ∧ zeroBytes t 3 10 then some (.setId (u16be t[13] t[14]))
  else if t[2] = 8 ∧ t[3] = 1 ∧ t[4].toNat ≤ PERIOD_MAX ∧ zeroBytes t 5 10 then some (.setWorkingPeriod t[4])
  else if t[2] = 8 ∧ t[3] = 0 ∧ zeroBytes t 4 11 then some .getWorkingPeriod
  else none

/-- The checksum of a command frame: sum8(T[2..16]) (40_framing.md R114). -/
def commandChecksum (t : CommandFrame) : Byte := sum8 ((t.toList.drop 2).take 15)

/-- Reading a command frame back: its wire command and its destination, or why it is none (R80, R87). Log entry 16. -/
def parseCommand (t : CommandFrame) : Except FrameError (WireCommand × Half) :=
  if t[0] ≠ HEAD then .error .badHead
  else if t[1] ≠ CMD_ID then .error .badCommandId
  else if t[18] ≠ TAIL then .error .badTail
  else if t[17] ≠ commandChecksum t then .error .badChecksum
  else match identify t with
    | some c => .ok (c, u16be t[15] t[16])
    | none => .error .noSuchCommand

/-! ### Response frames -/

/-- sum8(F[1..7]), RESPONSE_ID through sourceID (41_receive.md R135). -/
def responseSum (f : ResponseFrame) : Byte := sum8 [f[1], f[2], f[3], f[4], f[5], f[6], f[7]]

/-- The checksum check (R135). -/
def checksumPasses (f : ResponseFrame) : Bool := responseSum f == f[8]

/-- The tail check (R136). -/
def tailPasses (f : ResponseFrame) : Bool := f[9] == TAIL

/-- A response is valid iff both checks pass (R136). -/
def responseValid (f : ResponseFrame) : Bool := checksumPasses f && tailPasses f

end Sys2Proof
end

