-- ==== Sys2Proof/Machine/State.lean ====
section
/-! DEFINITION. The state of the block (10_state.md), plain data, and its reset value (70_reset_and_hazards.md R232); the
faults and refusals of a step. -/

namespace Sys2Proof.Machine

/-- Why the machine stops with a fault. -/
inductive Fault where
  /-- Raised by a meaning when the operation stands in a phase that its pseudocode never enters (BUILD in TX(3), say), and by
  the step when an unlisted op code stands anywhere but DISPATCH. No run reaches such a state, and the spec gives it no
  effect. Safe: it can only make a claim about unreachable states unprovable. Log entry 11. -/
  | strayPhase
  deriving DecidableEq, Repr

/-- Why the machine refuses an instruction. -/
inductive Refusal where
  /-- Raised by `exec` alone, for an operation that has no meaning yet. No arm does so any more. Safe. -/
  | notModelled (mnemonic : String)
  deriving DecidableEq, Repr

/-- The result codes of STATUS.CODE (60_exceptions.md R200). Values 12 to 15 are reserved and never produced (R93(a)). -/
inductive ResultCode where
  | none
  | ok
  | timeout
  | syncFail
  | bodyIncomplete
  | badChecksum
  | badTail
  | decodeFail
  | logicalMismatch
  | precondition
  | illegalOp
  | channelClosed
  deriving DecidableEq, Repr

/-- The four bits of STATUS.CODE (R200). -/
def ResultCode.bits : ResultCode → BitVec 4
  | .none => 0
  | .ok => 1
  | .timeout => 2
  | .syncFail => 3
  | .bodyIncomplete => 4
  | .badChecksum => 5
  | .badTail => 6
  | .decodeFail => 7
  | .logicalMismatch => 8
  | .precondition => 9
  | .illegalOp => 10
  | .channelClosed => 11

/-- The engine's position (10_state.md R40). `tx i` is TX(i), i = 0..18. `body k` is BODY(k+1): it waits for body byte
F[k+1], k = 0..8. -/
inductive Phase where
  | idle
  | dispatch
  | tx (i : Fin 19)
  | sync
  | body (k : Fin 9)
  deriving DecidableEq, Repr

/-- The host-written configuration: IRQ_EN, DEST, ARG, BCMD and PAYLOAD0..2 (R31 to R35). -/
structure HostConfig where
  doneIe : Bool
  dest : Half
  arg : Half
  cmd : Byte
  plen : BitVec 4
  payload : Vector Byte 12
  deriving DecidableEq, Repr

/-- The latched operands, captured by the GO write (R42). -/
structure Latch where
  op : Byte
  dest : Half
  arg : Half
  cmd : Byte
  plen : BitVec 4
  payload : Vector Byte 12
  deriving DecidableEq, Repr

/-- The result registers RES_VAL, FW, FWID and PM (R39). -/
structure Results where
  val : Byte
  year : Byte
  month : Byte
  day : Byte
  fwid : Half
  pm25 : Half
  pm10 : Half
  deriving DecidableEq, Repr

/-- Every result register 0: what reset (R232) and the GO write (R30) leave. -/
def Results.zero : Results :=
  { val := 0, year := 0, month := 0, day := 0, fwid := 0, pm25 := 0, pm10 := 0 }

/-- One item of the listed environment. -/
inductive EnvStep where
  /-- One cycle with these inputs. -/
  | cycle (c : CycleIn)
  /-- The rest of the open read window passes with no host access and no byte, up to its expiry: the untimed reading of
  41_receive.md R131. Log entry 4. -/
  | expire
  deriving DecidableEq, Repr

/-- The state: every piece of state the spec names, the wire streams, the ports, and the model's own last three fields. -/
structure State where
  /-- GO.LAST_OP (R28). -/
  lastOp : Byte
  /-- STATUS.BUSY (R29). -/
  busy : Bool
  /-- STATUS.DONE (R29). -/
  done : Bool
  /-- STATUS.COLLIDE (R29). -/
  collide : Bool
  /-- STATUS.CODE (R29). -/
  code : ResultCode
  /-- IRQ_EN, DEST, ARG, BCMD, PAYLOAD (R31 to R35). -/
  cfg : HostConfig
  /-- RES_VAL, FW, FWID, PM (R39). -/
  res : Results
  /-- TXBUF[0..18] (R37). -/
  txbuf : CommandFrame
  /-- RXINFO.TXV (R44). -/
  txv : Bool
  /-- RXBUF[0..9] (R38). -/
  rxbuf : ResponseFrame
  /-- RXINFO.RXCOUNT (R36, R43). -/
  rxcount : BitVec 4
  /-- RXINFO.DISCARDS (R36, R43). -/
  discards : BitVec 5
  /-- The internal phase (R40). -/
  phase : Phase
  /-- L_OP, L_DEST, L_ARG, L_CMD, L_PLEN, L_PAYLOAD (R42). -/
  latch : Latch
  /-- The read-window timer (R43). -/
  wtimer : Nat
  /-- The TX stream: bytes transferred so far, oldest first (20_memory.md R68). -/
  txStream : List Byte
  /-- The RX stream: bytes the channel holds, next one first (R24, R68). -/
  rxStream : List Byte
  /-- The input ports in the current cycle (R20). -/
  pins : CycleIn
  /-- `bus_rdata`: the data of the read made in the last cycle, none if it made no read (R20). Log entry 9. -/
  busRdata : Option Word
  /-- What `tx_data` carries while `tx_valid = 0` (R232, 93 U7). Log entry 8. -/
  txDataOff : Byte
  /-- The parameter RX_TIMEOUT_CYCLES, constant in every run (R8, 93 U3). Log entry 3. -/
  rxTimeout : Nat
  /-- The listed inputs of the coming cycles. Log entry 2. -/
  env : List EnvStep
  /-- The number of the current cycle, which indexes the free values. Log entry 1. -/
  cycle : Nat
  deriving DecidableEq, Repr

/-- Input levels of a cycle in which nothing happens: no reset, no host access, no byte accepted, arriving or offered. -/
def quietCycle (chanOpen : Bool) : CycleIn :=
  { rstN := true, busAddr := 0, busWdata := 0, busWe := false, busRe := false, txReady := false, rxArrive := [],
    rxOffer := false, chanOpen := chanOpen, dispatchHold := false }

/-- The state right after reset: R232 for every state element of the block. The channel holds nothing and has taken nothing,
and no input is listed (log entries 7, 10). -/
def State.reset : State :=
  { lastOp := 0x00
    busy := false
    done := false
    collide := false
    code := .none
    cfg := { doneIe := false, dest := 0xFFFF, arg := 0, cmd := 0, plen := 0, payload := Vector.replicate 12 0 }
    res := .zero
    txbuf := Vector.replicate 19 0
    txv := false
    rxbuf := Vector.replicate 10 0
    rxcount := 0
    discards := 0
    phase := .idle
    latch := { op := 0, dest := 0xFFFF, arg := 0, cmd := 0, plen := 0, payload := Vector.replicate 12 0 }
    wtimer := 0
    txStream := []
    rxStream := []
    pins := quietCycle false
    busRdata := none
    txDataOff := 0x00
    rxTimeout := Config.rxTimeoutCycles
    env := []
    cycle := 0 }

end Sys2Proof.Machine
end

