-- ==== Sys2Proof/Machine/Flags.lean ====
section
/-! DEFINITION. The block's flags BUSY, DONE, COLLIDE and TXV (10_state.md R46), the words they are read in (R29, R36), and
the output ports (R23, R24, R40, 60_exceptions.md R210). -/

namespace Sys2Proof.Machine

/-! ### Setting and clearing the flags -/

/-- A GO write that starts an operation: BUSY ← 1, DONE ← 0, CODE ← 0 (R30). -/
def flagsOnStart (s : State) : State := { s with busy := true, done := false, code := .none }

/-- `finish(code)`: CODE ← code, BUSY ← 0, DONE ← 1 (R205). -/
def flagsOnFinish (c : ResultCode) (s : State) : State := { s with code := c, busy := false, done := true }

/-- A GO write while BUSY = 1: COLLIDE ← 1 (R30). -/
def flagsOnCollide (s : State) : State := { s with collide := true }

/-- A host write of STATUS: DONE and COLLIDE are cleared where the written bit is 1, and nothing else changes (R29). -/
def flagsOnStatusWrite (v : Word) (s : State) : State :=
  { s with done := s.done && !v.getLsbD 1, collide := s.collide && !v.getLsbD 2 }

/-- The failure classes CODE tells apart (42_commands.md R172). -/
inductive FailureClass where
  | communication
  | integrity
  | decode
  | logicalMismatch
  | callerError
  deriving DecidableEq, Repr

/-- The failure class of a result code: none for NONE and OK (R172). -/
def failureClass : ResultCode → Option FailureClass
  | .none | .ok => none
  | .timeout | .syncFail | .bodyIncomplete | .channelClosed => some .communication
  | .badChecksum | .badTail => some .integrity
  | .decodeFail => some .decode
  | .logicalMismatch => some .logicalMismatch
  | .precondition | .illegalOp => some .callerError

/-! ### The words the flags are read in -/

/-- STATUS: [0] BUSY, [1] DONE, [2] COLLIDE, [11:8] CODE, the rest 0 (R29). -/
def statusWord (s : State) : Word :=
  (0#20 ++ s.code.bits ++ 0#5 ++ BitVec.ofBool s.collide ++ BitVec.ofBool s.done ++ BitVec.ofBool s.busy : BitVec 32)

/-- RXINFO: [3:0] RXCOUNT, [12:8] DISCARDS, [16] TXV, the rest 0 (R36). -/
def rxinfoWord (s : State) : Word :=
  (0#15 ++ BitVec.ofBool s.txv ++ 0#3 ++ s.discards ++ 0#4 ++ s.rxcount : BitVec 32)

/-! ### Phases with a handshake -/

/-- The engine is in a TX phase (R40). -/
def State.inTx (s : State) : Bool :=
  match s.phase with
  | .tx _ => true
  | .idle | .dispatch | .sync | .body _ => false

/-- A read window is open: the engine is in a SYNC or BODY phase (R40, R43). -/
def State.inWindow (s : State) : Bool :=
  match s.phase with
  | .sync | .body _ => true
  | .idle | .dispatch | .tx _ => false

/-! ### Output ports. `pins` are the inputs of the current cycle; while `rst_n = 0` the three levels are 0
(70_reset_and_hazards.md R230). The ports in the cycle that a step runs are those of `nextInputs s` (Machine/Ops.lean). -/

/-- `irq` = STATUS.DONE AND IRQ_EN.DONE_IE, a level from registered state (R210), 0 while `rst_n = 0` (R230). -/
def State.irq (s : State) : Bool := s.pins.rstN && (s.done && s.cfg.doneIe)

/-- `tx_valid` is 1 exactly in a TX phase (R23, R40), 0 while `rst_n = 0` (R230). -/
def State.txValid (s : State) : Bool := s.pins.rstN && s.inTx

/-- `tx_data` is TXBUF[i] in TX(i) (R40); while `tx_valid = 0` its value is meaningless (R232, 93 U7; log entry 8). -/
def State.txData (s : State) : Byte :=
  match s.phase with
  | .tx i => if s.pins.rstN then s.txbuf[i] else s.txDataOff
  | .idle | .dispatch | .sync | .body _ => s.txDataOff

/-- `rx_ready` is 1 exactly in a SYNC or BODY phase (R24, R40), 0 while `rst_n = 0` (R230). -/
def State.rxReady (s : State) : Bool := s.pins.rstN && s.inWindow

end Sys2Proof.Machine
end

