-- ==== Sys2Proof/Machine/Operands.lean ====
section
/-! DEFINITION. The operands of the operations: the payload bytes BUILD uses (40_framing.md R111), the fields of the latched
ARG (10_state.md R33), and the bytes of a response an operation reads (30_encoding.md R82, 20_memory.md R62). -/

namespace Sys2Proof.Machine

/-! ### Operands of a request -/

/-- BUILD's payload: L_PAYLOAD[0..L_PLEN−1] (R111, R86). -/
def buildPayload (l : Latch) : List Byte := l.payload.toList.take l.plen.toNat

/-- BUILD's precondition fails: L_PLEN > 12 (R112). -/
def plenTooLong (l : Latch) : Bool := decide (l.plen.toNat > PAYLOAD_MAX)

/-- SET_SLEEP's wire value: 0 if sleep (L_ARG[0] = 1), else 1 (R162). L_ARG[15:1] is ignored. -/
def sleepWant (l : Latch) : Byte := if l.arg.getLsbD 0 then 0 else 1

/-- SET_MODE's mode: L_ARG[7:0] (R164). L_ARG[15:8] is ignored. -/
def modeArg (l : Latch) : Byte := l.arg.extractLsb' 0 8

/-- SET_ID's new id: L_ARG[15:0] (R168). -/
def newIdArg (l : Latch) : Half := l.arg

/-- SET_WORKING_PERIOD's precondition fails: L_ARG[15:0] > 30, checked in full (R169). -/
def periodTooLong (l : Latch) : Bool := decide (l.arg.toNat > PERIOD_MAX)

/-- SET_WORKING_PERIOD's wire value: the period's low byte (R169). -/
def periodArg (l : Latch) : Byte := l.arg.extractLsb' 0 8

/-- The wire command a command operation sends, with its latched operand (30_encoding.md R86): none for BUILD, SEND and
RECEIVE, which send no command of their own, and none for a working period that fails its precondition (R169). -/
def requestOf (i : Instr) (l : Latch) : Option WireCommand :=
  match i with
  | .build | .send | .receive => none
  | .getSleep => some .getSleep
  | .setSleep => some (.setSleep (l.arg.getLsbD 0))
  | .getMode => some .getMode
  | .setMode => some (.setMode (modeArg l))
  | .firmwareVersion => some .firmwareVersion
  | .queryDust => some .queryDust
  | .setId => some (.setId l.arg)
  | .setWorkingPeriod => if l.arg.toNat ≤ PERIOD_MAX then some (.setWorkingPeriod (periodArg l)) else none
  | .getWorkingPeriod => some .getWorkingPeriod

/-! ### Operands in a response -/

/-- RESPONSE_ID, F[1] (R81). -/
def respId (f : ResponseFrame) : Byte := f[1]

/-- F[4]: sleep state, mode, period, or the echo of one (R82). -/
def respValue (f : ResponseFrame) : Byte := f[4]

/-- The sourceID or echoed id F[6..7], big-endian (R62(a), R62(d), R82). -/
def respSourceId (f : ResponseFrame) : Half := u16be f[6] f[7]

/-- PM25_RAW = u16le(F[2], F[3]) (R62(c)). -/
def respPm25 (f : ResponseFrame) : Half := u16le f[2] f[3]

/-- PM10_RAW = u16le(F[4], F[5]) (R62(c)). -/
def respPm10 (f : ResponseFrame) : Half := u16le f[4] f[5]

/-- The concentration a raw dust reading stands for: raw / 10, exactly (42_commands.md R171). The host computes it; no step
of the block uses it. -/
def dustValue (raw : Half) : ℚ := (raw.toNat : ℚ) / 10

end Sys2Proof.Machine
end

