-- ==== Sys2Proof/Machine/Ops.lean ====
section
/-! DEFINITION. The shared operations of the machine: completion and its acknowledgement (60_exceptions.md R205, R208), the
host's registers (10_state.md R27, 20_memory.md R63), the channel primitives and the phases built on them (40_framing.md
R116, 41_receive.md R130 to R137), and the parts of one cycle (R69, R230). -/

namespace Sys2Proof.Machine

/-! ### Completion: the counterpart of taking an exception, and of the return from it -/

/-- `finish(code)`: ends the running operation (R205). The result registers are the caller's, and only on OK (R45). -/
def finish (c : ResultCode) (s : State) : State := { flagsOnFinish c s with phase := .idle }

/-- The host's acknowledgement by a write of STATUS (R208): DONE and COLLIDE are cleared where the bit is 1 (R29). -/
def acknowledge (v : Word) (s : State) : State := flagsOnStatusWrite v s

/-! ### Starting an operation -/

/-- The latched operands a GO write captures (R30, R42). -/
def captureOperands (op : Byte) (c : HostConfig) : Latch :=
  { op := op, dest := c.dest, arg := c.arg, cmd := c.cmd, plen := c.plen, payload := c.payload }

/-- Starting an operation with op code `op`: what a GO write does when BUSY = 0 (R30). -/
def startOperation (op : Byte) (s : State) : State :=
  { flagsOnStart s with
    lastOp := op
    latch := captureOperands op s.cfg
    res := .zero
    phase := .dispatch }

/-- A host write of GO: an atomic test-and-start (R30, 20_memory.md R73). -/
def writeGo (v : Word) (s : State) : State :=
  if s.busy then flagsOnCollide s else startOperation (goByte v) s

/-! ### The host's register map -/

/-- A register of the map of R27. -/
inductive HostReg where
  | go
  | status
  | irqEn
  | dest
  | arg
  | bcmd
  | payload (j : Fin 3)
  | rxinfo
  | resVal
  | fw
  | fwid
  | pm
  | txbuf (j : Fin 5)
  | rxbuf (j : Fin 3)
  | reserved
  deriving DecidableEq, Repr

/-- The register at offset `addr & 0xFC` (R27, R63): `addr[1:0]` is ignored (R64). -/
def hostReg (addr : BitVec 8) : HostReg :=
  match addr.toNat / 4 with
  | 0 => .go
  | 1 => .status
  | 2 => .irqEn
  | 3 => .dest
  | 4 => .arg
  | 5 => .bcmd
  | 6 => .payload 0
  | 7 => .payload 1
  | 8 => .payload 2
  | 9 => .rxinfo
  | 10 => .resVal
  | 11 => .fw
  | 12 => .fwid
  | 13 => .pm
  | 16 => .txbuf 0
  | 17 => .txbuf 1
  | 18 => .txbuf 2
  | 19 => .txbuf 3
  | 20 => .txbuf 4
  | 24 => .rxbuf 0
  | 25 => .rxbuf 1
  | 26 => .rxbuf 2
  | _ => .reserved

/-- Four buffer bytes in one register, the lowest-numbered in the least significant bits (20_memory.md R60). -/
def packWord (b0 b1 b2 b3 : Byte) : Word := b3 ++ b2 ++ b1 ++ b0

/-- Byte `i` of a register: bits [8i+7:8i] (R60). -/
def wordByte (v : Word) (i : Nat) : Byte := v.extractLsb' (8 * i) 8

/-- Word `j` of a byte buffer: its bytes 4j to 4j+3, where the buffer has no byte 0 (R60, R37, R38). -/
def bufferWord (b : List Byte) (j : Nat) : Word :=
  packWord (b.getD (4 * j) 0) (b.getD (4 * j + 1) 0) (b.getD (4 * j + 2) 0) (b.getD (4 * j + 3) 0)

/-- PAYLOAD with word `j` replaced: byte 4j+i becomes byte i of the word (R35, R60). -/
def setPayloadWord (p : Vector Byte 12) (j : Fin 3) (v : Word) : Vector Byte 12 :=
  Vector.ofFn fun i => if i.val / 4 = j.val then wordByte v (i.val % 4) else p[i]

/-- What a host read of a register returns (R27 to R39). Reserved bits read 0. -/
def readHostReg (r : HostReg) (s : State) : Word :=
  match r with
  | .go => s.lastOp.setWidth 32
  | .status => statusWord s
  | .irqEn => (BitVec.ofBool s.cfg.doneIe).setWidth 32
  | .dest => s.cfg.dest.setWidth 32
  | .arg => s.cfg.arg.setWidth 32
  | .bcmd => (0#20 ++ s.cfg.plen ++ s.cfg.cmd : BitVec 32)
  | .payload j => bufferWord s.cfg.payload.toList j
  | .rxinfo => rxinfoWord s
  | .resVal => s.res.val.setWidth 32
  | .fw => packWord s.res.year s.res.month s.res.day 0
  | .fwid => s.res.fwid.setWidth 32
  | .pm => (s.res.pm10 ++ s.res.pm25 : BitVec 32)
  | .txbuf j => bufferWord s.txbuf.toList j
  | .rxbuf j => bufferWord s.rxbuf.toList j
  | .reserved => 0

/-- What a host write of a register does (R27 to R39): read-only registers and unlisted offsets ignore it. -/
def writeHostReg (r : HostReg) (v : Word) (s : State) : State :=
  match r with
  | .go => writeGo v s
  | .status => acknowledge v s
  | .irqEn => { s with cfg := { s.cfg with doneIe := v.getLsbD 0 } }
  | .dest => { s with cfg := { s.cfg with dest := v.extractLsb' 0 16 } }
  | .arg => { s with cfg := { s.cfg with arg := v.extractLsb' 0 16 } }
  | .bcmd => { s with cfg := { s.cfg with cmd := v.extractLsb' 0 8, plen := v.extractLsb' 8 4 } }
  | .payload j => { s with cfg := { s.cfg with payload := setPayloadWord s.cfg.payload j v } }
  | .rxinfo | .resVal | .fw | .fwid | .pm | .txbuf _ | .rxbuf _ | .reserved => s

/-- MemRead(addr, 4) (R63). It has no side effect (R65). -/
def readReg (addr : BitVec 8) (s : State) : Word := readHostReg (hostReg addr) s

/-- MemWrite(addr, 4, v) (R63). -/
def writeReg (addr : BitVec 8) (v : Word) (s : State) : State := writeHostReg (hostReg addr) v s

/-! ### Framing and transmission -/

/-- The build step: TXBUF ← frame(cmd, p, L_DEST), TXV ← 1 (R113, R160). -/
def loadFrame (cmd : Byte) (p : List Byte) (s : State) : State :=
  { s with txbuf := frame cmd p s.latch.dest, txv := true }

/-- The start of a write phase, or CHANNEL_CLOSED when `chan_open` is 0 in the step before TX(0) (R116, R117). -/
def startTransmit (s : State) : State :=
  if s.pins.chanOpen then { s with phase := .tx 0 } else finish .channelClosed s

/-- `ChanWrite(TXBUF[i])` completes: the byte is on the TX stream (R23, R61). -/
def sendByte (i : Fin 19) (s : State) : State := { s with txStream := s.txStream ++ [s.txbuf[i]] }

/-- One cycle in TX(i): nothing while the channel does not accept the byte (R23, R243); else the transfer, then TX(i+1), or
after TX(18) the caller's next action (R116). -/
def transmitCycle (after : State → State) (i : Fin 19) (s : State) : State :=
  if s.pins.txReady then
    if h : i.val + 1 < 19 then { sendByte i s with phase := .tx ⟨i.val + 1, h⟩ } else after (sendByte i s)
  else s

/-! ### Receiving -/

/-- `rx_data` when `rx_valid` = 1: the oldest byte the channel holds, if it offers it in this cycle (R24). -/
def State.rxOffered (s : State) : Option Byte := if s.pins.rxOffer then s.rxStream.head? else none

/-- `rx_valid` (R20, R24). -/
def State.rxValid (s : State) : Bool := s.rxOffered.isSome

/-- The offered byte is transferred: it leaves the RX stream (R24, R68). -/
def takeByte (s : State) : State := { s with rxStream := s.rxStream.tail }

/-- `ChanRead1` opens a fresh window for one sync byte (R131). -/
def openSync (s : State) : State := { s with phase := .sync, wtimer := s.rxTimeout }

/-- `OpenWindow` opens the one window for the nine body bytes (R131, R134). -/
def openBody (s : State) : State := { s with phase := .body 0, wtimer := s.rxTimeout }

/-- The start of a receive phase: RXBUF, RXCOUNT and DISCARDS are cleared in the step that opens the first sync window
(R130). -/
def beginReceive (s : State) : State :=
  openSync { s with rxbuf := Vector.replicate 10 0, rxcount := 0, discards := 0 }

/-- The window timer counts down once per cycle in SYNC and BODY (R131, R213). Log entry 20. -/
def tickWindow (s : State) : State := { s with wtimer := s.wtimer - 1 }

/-- A cycle of an open window in which no byte was transferred: the window expires, ending the operation with `c`, when the
timer has reached 0 (R131); else it stays open. -/
def windowWaits (c : ResultCode) (s : State) : State := if s.wtimer = 0 then finish c s else s

/-- A sync byte: HEAD starts the body window; any other byte is discarded, and the 20th discard is SYNC_FAIL (R132, R133). -/
def syncByte (b : Byte) (s : State) : State :=
  if b = HEAD then openBody { s with rxbuf := s.rxbuf.set 0 HEAD, rxcount := 1 }
  else if s.discards + 1 = BitVec.ofNat 5 SYNC_CAP then finish .syncFail { s with discards := s.discards + 1 }
  else openSync { s with discards := s.discards + 1 }

/-- One cycle in SYNC (R132): a byte beats the expiry of the window (R207(c)). -/
def syncCycle (s : State) : State :=
  match s.rxOffered with
  | some b => syncByte b (takeByte (tickWindow s))
  | none => windowWaits .timeout (tickWindow s)

/-- The checks after the ninth body byte: checksum first, then tail (R135 to R137); a valid frame goes on to `onValid`. -/
def validate (onValid : State → State) (s : State) : State :=
  if checksumPasses s.rxbuf then
    if tailPasses s.rxbuf then onValid s else finish .badTail s
  else finish .badChecksum s

/-- The body byte F[k+1] is captured (R134). -/
def storeBodyByte (k : Fin 9) (b : Byte) (s : State) : State :=
  { s with rxbuf := s.rxbuf.set (k.val + 1) b, rxcount := BitVec.ofNat 4 (k.val + 2) }

/-- One cycle in BODY(k+1): a byte is captured, and the ninth is followed by the checks in the same step (R134, R137); no
byte and an expired window is BODY_INCOMPLETE. Log entry 5. -/
def bodyCycle (onValid : State → State) (k : Fin 9) (s : State) : State :=
  match s.rxOffered with
  | some b =>
    if h : k.val + 1 < 9 then { storeBodyByte k b (takeByte (tickWindow s)) with phase := .body ⟨k.val + 1, h⟩ }
    else validate onValid (storeBodyByte k b (takeByte (tickWindow s)))
  | none => windowWaits .bodyIncomplete (tickWindow s)

/-! ### The common transaction of the command operations -/

/-- Transact(cmd, p) up to its write phase: build, TXV ← 1, then the channel check (42_commands.md R160). -/
def transact (cmd : Byte) (p : List Byte) (s : State) : State := startTransmit (loadFrame cmd p s)

/-- One cycle of a command operation: its DISPATCH step `start`, the write phase, the receive phase that opens in the TX(18)
step, and the operation's decode of a valid response `decodeResponse` (R160). -/
def commandCycle (start decodeResponse : State → State) (s : State) : Host.Outcome State Fault Refusal :=
  match s.phase with
  | .dispatch => .next (start s)
  | .tx i => .next (transmitCycle beginReceive i s)
  | .sync => .next (syncCycle s)
  | .body k => .next (bodyCycle decodeResponse k s)
  | .idle => .fault .strayPhase

/-- The echo rule of the set operations: OK iff the sensor's echo is the value requested, else LOGICAL_MISMATCH (R162, R164,
R168, R169). -/
def finishEcho (echoed : Bool) (s : State) : State := finish (if echoed then .ok else .logicalMismatch) s

/-- What an op code that is no operation does in one cycle: its DISPATCH step finishes ILLEGAL_OP (30_encoding.md R92,
60_exceptions.md R201). -/
def illegalOpCycle (s : State) : Host.Outcome State Fault Refusal :=
  match s.phase with
  | .dispatch => .next (finish .illegalOp s)
  | .idle | .tx _ | .sync | .body _ => .fault .strayPhase

/-! ### One cycle -/

/-- The cycle's inputs reach the ports, and the bytes that arrive join those the channel holds (R24, R25). -/
def takeInputs (c : CycleIn) (s : State) : State :=
  { s with pins := c, rxStream := s.rxStream ++ c.rxArrive, busRdata := none }

/-- The quiet cycles of an open window before its last one have passed (R131, untimed reading). Log entry 4. -/
def skipWindow (s : State) : State :=
  if s.inWindow then { s with wtimer := 1, cycle := s.cycle + (s.wtimer - 1) } else s

/-- The inputs of the next cycle: the listed ones, else a free draw (93 U1, U2; log entries 1, 2). -/
def nextInputs (s : State) : State :=
  match s.env with
  | [] => takeInputs (Config.envInput s.cycle) s
  | .cycle c :: rest => takeInputs c { s with env := rest }
  | .expire :: rest => takeInputs (quietCycle s.pins.chanOpen) (skipWindow { s with env := rest })

/-- The data a host read returns in this cycle: the register's value as it stands (R63, R69); unspecified when both strobes
are 1 (93 U9; log entry 9). -/
def hostRead (s : State) : Option Word :=
  if s.pins.busRe then
    some (if s.pins.busWe then Config.bothStrobesRdata s.cycle else readReg s.pins.busAddr s)
  else none

/-- The host access of this cycle, on the state as it stands before the engine step (R63, R69). -/
def hostAccess (s : State) : State :=
  if s.pins.busWe then { writeReg s.pins.busAddr s.pins.busWdata s with busRdata := hostRead s }
  else { s with busRdata := hostRead s }

/-- The engine has a step or a wait in this cycle: an operation is running, and its DISPATCH step is not put off. A GO write
of this very cycle has no DISPATCH step yet (R30, R41; log entry 6). -/
def engineActive (s : State) : Bool :=
  match s.phase with
  | .idle => false
  | .dispatch => !s.pins.dispatchHold
  | .tx _ | .sync | .body _ => true

/-- The end of a cycle without reset: the next cycle's free values are new ones. -/
def endCycle (s : State) : State := { s with txDataOff := Config.txDataOff s.cycle, cycle := s.cycle + 1 }

/-- A cycle with `rst_n = 0` (R230): every state element of the block takes its reset value, host writes are ignored, reads
return reset values, and no byte is transferred. The channel is not reset (R231). Log entry 19. -/
def resetCycle (s : State) : State :=
  { State.reset with
    txStream := s.txStream
    rxStream := s.rxStream
    pins := s.pins
    busRdata := hostRead { State.reset with pins := s.pins, cycle := s.cycle }
    rxTimeout := s.rxTimeout
    env := s.env
    cycle := s.cycle + 1 }

/-- The rest of a cycle after the engine's own: a next state ends its cycle; a stop stays as it is. -/
def thenEndCycle (o : Host.Outcome State Fault Refusal) : Host.Outcome State Fault Refusal :=
  match o with
  | .next s => .next (endCycle s)
  | .fault r => .fault r
  | .refused r => .refused r

/-! ### Host programs (30_encoding.md R94 to R96) and the system's view of the block -/

/-- A `WR` line: one bus write in a cycle that is otherwise quiet, the channel open (R96). -/
def busWrite (addr : BitVec 8) (v : Word) : EnvStep :=
  .cycle { quietCycle true with busAddr := addr, busWdata := v, busWe := true }

/-- An `RD` line: one bus read (R96). -/
def busRead (addr : BitVec 8) : EnvStep := .cycle { quietCycle true with busAddr := addr, busRe := true }

/-- A `GO` line: a bus write of an operation's op code to offset 0x00 (R94, R96). -/
def busGo (i : Instr) : EnvStep := busWrite 0x00 (encodeGo i)

/-- The offset a system address reaches in the block's 256-byte space at BASE, if any (20_memory.md R67; log entry 17). -/
def busOffset (sysAddr : Nat) : Option (BitVec 8) :=
  if Config.base ≤ sysAddr ∧ sysAddr < Config.base + 256 then some (BitVec.ofNat 8 sysAddr) else none

end Sys2Proof.Machine
end

