-- ==== Sys2Proof/Machine/Command.lean ====
section
/-! DEFINITION. The meanings of the nine sensor command operations (42_commands.md): one cycle of the operation at the phase
the state stands in. Each has its request (the DISPATCH step, R160) and its decode of a valid response, which runs in the
step that received F[9] and writes every result field in that step (10_state.md R45). -/

namespace Sys2Proof.Machine

/-- GET_SLEEP's decode: F[4] must be 0 or 1; RES_VAL = 1 means sleeping, which is F[4] = 0 (R161). -/
def decodeGetSleep (s : State) : State :=
  if respValue s.rxbuf = 0 then finish .ok { s with res := { s.res with val := 1 } }
  else if respValue s.rxbuf = 1 then finish .ok { s with res := { s.res with val := 0 } }
  else finish .decodeFail s

/-- GET_SLEEP (op 0x10, R161): wire command 6, payload [0, 0]. -/
def execGetSleep (s : State) : Host.Outcome State Fault Refusal :=
  commandCycle (transact 6 [0, 0]) decodeGetSleep s

/-- SET_SLEEP's decode: the echo F[4] against the value sent (R162). -/
def decodeSetSleep (s : State) : State := finishEcho (respValue s.rxbuf == sleepWant s.latch) s

/-- SET_SLEEP (op 0x11, R162): wire command 6, payload [1, 0 if sleep else 1]. -/
def execSetSleep (s : State) : Host.Outcome State Fault Refusal :=
  commandCycle (transact 6 [1, sleepWant s.latch]) decodeSetSleep s

/-- GET_MODE's decode: F[4] must be 0 or 1 (R163). -/
def decodeGetMode (s : State) : State :=
  if respValue s.rxbuf = 0 ∨ respValue s.rxbuf = 1 then
    finish .ok { s with res := { s.res with val := respValue s.rxbuf } }
  else finish .decodeFail s

/-- GET_MODE (op 0x12, R163): wire command 2, payload [0, 0]. -/
def execGetMode (s : State) : Host.Outcome State Fault Refusal :=
  commandCycle (transact 2 [0, 0]) decodeGetMode s

/-- SET_MODE's decode: the echo F[4] against the mode sent (R164). -/
def decodeSetMode (s : State) : State := finishEcho (respValue s.rxbuf == modeArg s.latch) s

/-- SET_MODE (op 0x13, R164): wire command 2, payload [1, mode]; any mode byte is accepted. -/
def execSetMode (s : State) : Host.Outcome State Fault Refusal :=
  commandCycle (transact 2 [1, modeArg s.latch]) decodeSetMode s

/-- FIRMWARE_VERSION's decode: year F[3], month F[4], day F[5], id F[6..7], raw and unchecked (R165, R166). -/
def decodeFirmwareVersion (s : State) : State :=
  finish .ok { s with
    res := { s.res with year := s.rxbuf[3], month := s.rxbuf[4], day := s.rxbuf[5], fwid := respSourceId s.rxbuf } }

/-- FIRMWARE_VERSION (op 0x14, R165): wire command 7, empty payload. -/
def execFirmwareVersion (s : State) : Host.Outcome State Fault Refusal :=
  commandCycle (transact 7 []) decodeFirmwareVersion s

/-- QUERY_DUST's decode: F[1] must be the data response 0xC0 (R167). -/
def decodeQueryDust (s : State) : State :=
  if respId s.rxbuf = RESP_DATA then
    finish .ok { s with res := { s.res with pm25 := respPm25 s.rxbuf, pm10 := respPm10 s.rxbuf } }
  else finish .decodeFail s

/-- QUERY_DUST (op 0x15, R167): wire command 4, empty payload. -/
def execQueryDust (s : State) : Host.Outcome State Fault Refusal :=
  commandCycle (transact 4 []) decodeQueryDust s

/-- SET_ID's decode: the echoed id F[6..7] against the id sent (R168). DEST is not updated. -/
def decodeSetId (s : State) : State := finishEcho (respSourceId s.rxbuf == newIdArg s.latch) s

/-- SET_ID (op 0x16, R168): wire command 5, ten zero bytes and the new id, big-endian. -/
def execSetId (s : State) : Host.Outcome State Fault Refusal :=
  commandCycle (transact 5 [0, 0, 0, 0, 0, 0, 0, 0, 0, 0, hiByte (newIdArg s.latch), loByte (newIdArg s.latch)])
    decodeSetId s

/-- SET_WORKING_PERIOD's DISPATCH step: a period above 30 finishes PRECONDITION with no build and no byte sent (R169). -/
def startSetWorkingPeriod (s : State) : State :=
  if periodTooLong s.latch then finish .precondition s else transact 8 [1, periodArg s.latch] s

/-- SET_WORKING_PERIOD's decode: the echo F[4] against the period sent (R169). -/
def decodeSetWorkingPeriod (s : State) : State := finishEcho (respValue s.rxbuf == periodArg s.latch) s

/-- SET_WORKING_PERIOD (op 0x17, R169): wire command 8, payload [1, period]. -/
def execSetWorkingPeriod (s : State) : Host.Outcome State Fault Refusal :=
  commandCycle startSetWorkingPeriod decodeSetWorkingPeriod s

/-- GET_WORKING_PERIOD's decode: F[4] must be at most 30 (R170). -/
def decodeGetWorkingPeriod (s : State) : State :=
  if (respValue s.rxbuf).toNat ≤ PERIOD_MAX then
    finish .ok { s with res := { s.res with val := respValue s.rxbuf } }
  else finish .decodeFail s

/-- GET_WORKING_PERIOD (op 0x18, R170): wire command 8, payload [0]. -/
def execGetWorkingPeriod (s : State) : Host.Outcome State Fault Refusal :=
  commandCycle (transact 8 [0]) decodeGetWorkingPeriod s

end Sys2Proof.Machine
end

