-- ==== Sys2Proof/Machine/Framing.lean ====
section
/-! DEFINITION. The meanings of BUILD and SEND (40_framing.md): one cycle of the operation at the phase the state stands in. -/

namespace Sys2Proof.Machine

/-- BUILD (op 0x01, R113): one engine step. L_PLEN > 12 clears TXV and finishes PRECONDITION, TXBUF unchanged (R112); else
TXBUF holds the frame, TXV = 1, and it finishes OK. No channel transfer and no sample of `chan_open`. -/
def execBuild (s : State) : Host.Outcome State Fault Refusal :=
  match s.phase with
  | .dispatch =>
    .next (if plenTooLong s.latch then finish .precondition { s with txv := false }
      else finish .ok (loadFrame s.latch.cmd (buildPayload s.latch) s))
  | .idle | .tx _ | .sync | .body _ => .fault .strayPhase

/-- SEND (op 0x02, R115): PRECONDITION without a built frame, CHANNEL_CLOSED on a closed channel, else the 19 bytes of TXBUF
(R116) and OK in the step of the TX(18) transfer. -/
def execSend (s : State) : Host.Outcome State Fault Refusal :=
  match s.phase with
  | .dispatch => .next (if s.txv then startTransmit s else finish .precondition s)
  | .tx i => .next (transmitCycle (finish .ok) i s)
  | .idle | .sync | .body _ => .fault .strayPhase

end Sys2Proof.Machine
end

