-- ==== Sys2Proof/Machine/Receive.lean ====
section
/-! DEFINITION. The meaning of RECEIVE (41_receive.md R138): one cycle of the operation at the phase the state stands in. -/

namespace Sys2Proof.Machine

/-- RECEIVE (op 0x03, R138): one receive phase (R137) without transmitting, whatever `chan_open` is. It writes no result
register and leaves TXV. -/
def execReceive (s : State) : Host.Outcome State Fault Refusal :=
  match s.phase with
  | .dispatch => .next (beginReceive s)
  | .sync => .next (syncCycle s)
  | .body k => .next (bodyCycle (finish .ok) k s)
  | .idle | .tx _ => .fault .strayPhase

end Sys2Proof.Machine
end

