-- ==== Sys2Proof/Machine/Dispatch.lean ====
section
/-! DEFINITION. exec: what the running operation does in one cycle (30_encoding.md R91 in DISPATCH, 10_state.md R41). -/

namespace Sys2Proof.Machine

/-- One cycle of operation `i` at the phase the state stands in. -/
def exec (i : Instr) (s : State) : Host.Outcome State Fault Refusal :=
  match i with
  | .build => Sys2Proof.Machine.execBuild s
  | .send => Sys2Proof.Machine.execSend s
  | .receive => Sys2Proof.Machine.execReceive s
  | .getSleep => Sys2Proof.Machine.execGetSleep s
  | .setSleep => Sys2Proof.Machine.execSetSleep s
  | .getMode => Sys2Proof.Machine.execGetMode s
  | .setMode => Sys2Proof.Machine.execSetMode s
  | .firmwareVersion => Sys2Proof.Machine.execFirmwareVersion s
  | .queryDust => Sys2Proof.Machine.execQueryDust s
  | .setId => Sys2Proof.Machine.execSetId s
  | .setWorkingPeriod => Sys2Proof.Machine.execSetWorkingPeriod s
  | .getWorkingPeriod => Sys2Proof.Machine.execGetWorkingPeriod s

end Sys2Proof.Machine
end

