-- ==== Sys2Proof/Machine/Fetch.lean ====
section
/-! DEFINITION. Where the running operation's op code comes from: the block fetches no instruction (20_memory.md R74); the
op code is L_OP, latched by the GO write (10_state.md R30, R42). -/

namespace Sys2Proof.Machine

/-- The operation that runs: the decode of L_OP (R91). -/
def runningOp (s : State) : Except DecodeError Instr := decodeOp s.latch.op

/-- The inputs of the cycle in which a placed operation takes its DISPATCH step: no reset and no host access, the channel
open as R234 asks of the host. Log entry 12. -/
def fetchCycle : CycleIn := quietCycle true

/-- `s` after a GO write, taken in an idle block, of the op code in a row's word, with the inputs of the coming cycle listed.
Log entry 12. -/
def placeOperation (s : State) (nbits w : Nat) : State :=
  { startOperation (tableByte nbits w) s with env := .cycle fetchCycle :: s.env }

end Sys2Proof.Machine
end

