-- ==== Sys2Proof/Machine/Step.lean ====
section
/-! DEFINITION. One cycle of `clk` (20_memory.md R69, 60_exceptions.md R207): the inputs reach the ports; reset overrides
all; else the host access acts, then the engine. -/

namespace Sys2Proof.Machine

/-- What the running operation does in this cycle: the decoded operation, or ILLEGAL_OP (30_encoding.md R91). -/
def engineCycle (s : State) : Host.Outcome State Fault Refusal :=
  match runningOp s with
  | .ok i => exec i s
  | .error _ => illegalOpCycle s

/-- One cycle. -/
def step (s : State) : Host.Outcome State Fault Refusal :=
  if (nextInputs s).pins.rstN then
    if engineActive (nextInputs s) then thenEndCycle (engineCycle (hostAccess (nextInputs s)))
    else .next (endCycle (hostAccess (nextInputs s)))
  else .next (resetCycle (nextInputs s))

/-- `s` with a row's operation placed so that the very next step runs it. Log entry 12. -/
def State.withFetchWord (s : State) (nbits w : Nat) : State := placeOperation s nbits w

end Sys2Proof.Machine
end

