-- ==== Sys2Proof/Safety.lean ====
section
/-! DEFINITION. Runs, safe runs, and the invariant that every step keeps: the promises the spec makes about the whole block. -/

namespace Sys2Proof.Machine

/-! ### Families of operations -/

/-- The nine sensor command operations (42_commands.md). -/
def isCommand : Instr → Bool
  | .build | .send | .receive => false
  | .getSleep | .setSleep | .getMode | .setMode | .firmwareVersion | .queryDust | .setId | .setWorkingPeriod
  | .getWorkingPeriod => true

/-- The operations with a write phase: SEND and the commands (40_framing.md R116). -/
def transmits (i : Instr) : Bool := i == .send || isCommand i

/-- The operations with a receive phase: RECEIVE and the commands (41_receive.md). -/
def receives (i : Instr) : Bool := i == .receive || isCommand i

/-! ### Runs -/

/-- `n` cycles, stopping at the first fault or refusal. -/
def runCycles : Nat → State → Host.Outcome State Fault Refusal
  | 0, s => .next s
  | n + 1, s =>
    match step s with
    | .next t => runCycles n t
    | .fault r => .fault r
    | .refused r => .refused r

/-- An item of the environment that does not reset the block. -/
def EnvStep.noReset : EnvStep → Bool
  | .cycle c => c.rstN
  | .expire => true

/-- The states a run reaches: after reset, with any channel contents (93 U8), any window length (93 U3) and any listed
inputs, and then by steps. -/
inductive Reachable : State → Prop where
  | start (env : List EnvStep) (rx : List Byte) (n : Nat) (hn : 0 < n) :
      Reachable { State.reset with env := env, rxStream := rx, rxTimeout := n }
  | step {s t : State} (hs : Reachable s) (ht : Sys2Proof.Machine.step s = .next t) : Reachable t

/-- A step is safe when it answers a next state. -/
def SafeStep (s : State) : Prop := ∃ t, step s = .next t

/-- The document's fatal reading of a precondition violation, as a property of the host program (60_exceptions.md R203, 93
U5): the block itself goes on. Log entry 14. -/
def hostViolation (s : State) : Bool := s.code == .precondition

/-! ### The invariant -/

/-- A well-formed command frame: HEAD, CMD_ID and TAIL in place and the checksum right (40_framing.md R114, R118). -/
def commandFrameOk (t : CommandFrame) : Bool :=
  t[0] == HEAD && t[1] == CMD_ID && t[18] == TAIL && t[17] == commandChecksum t

/-- RXBUF holds HEAD and the captured bytes, and 0 beyond RXCOUNT (41_receive.md R130, R132, R134). -/
def rxbufOk (s : State) : Prop :=
  (s.rxcount ≠ 0 → s.rxbuf[0] = HEAD) ∧ ∀ j : Fin 10, s.rxcount.toNat ≤ j.val → s.rxbuf[j] = 0

/-- Which operation may finish with which code: the column "raised by" of 60_exceptions.md R200. -/
def raisedBy (c : ResultCode) (op : Byte) : Prop :=
  match c with
  | .none | .ok => True
  | .timeout | .syncFail | .bodyIncomplete | .badChecksum | .badTail => ∃ i, decodeOp op = .ok i ∧ receives i = true
  | .decodeFail => ∃ i ∈ [Instr.getSleep, .getMode, .queryDust, .getWorkingPeriod], decodeOp op = .ok i
  | .logicalMismatch => ∃ i ∈ [Instr.setSleep, .setMode, .setId, .setWorkingPeriod], decodeOp op = .ok i
  | .precondition => ∃ i ∈ [Instr.build, .send, .setWorkingPeriod], decodeOp op = .ok i
  | .illegalOp => ∀ i, decodeOp op ≠ .ok i
  | .channelClosed => ∃ i, decodeOp op = .ok i ∧ transmits i = true

/-- What a code says of the receive state: the column "recorded" of R200. -/
def recorded (s : State) : Prop :=
  match s.code with
  | .none | .ok | .precondition | .illegalOp => True
  | .timeout => s.rxcount = 0 ∧ s.discards.toNat ≤ 19
  | .syncFail => s.rxcount = 0 ∧ s.discards.toNat = 20
  | .bodyIncomplete => 1 ≤ s.rxcount.toNat ∧ s.rxcount.toNat ≤ 9
  | .badChecksum => s.rxcount.toNat = 10 ∧ checksumPasses s.rxbuf = false
  | .badTail => s.rxcount.toNat = 10 ∧ checksumPasses s.rxbuf = true ∧ tailPasses s.rxbuf = false
  | .decodeFail | .logicalMismatch => s.rxcount.toNat = 10 ∧ responseValid s.rxbuf = true
  | .channelClosed => s.txv = true

/-- A result register is 0 unless the last operation is one that writes it (10_state.md R39, 70_reset_and_hazards.md
R241). -/
def resultsOf (r : Results) (op : Byte) : Prop :=
  (r.val ≠ 0 → ∃ i ∈ [Instr.getSleep, .getMode, .getWorkingPeriod], decodeOp op = .ok i) ∧
  (r.year ≠ 0 ∨ r.month ≠ 0 ∨ r.day ≠ 0 ∨ r.fwid ≠ 0 → decodeOp op = .ok .firmwareVersion) ∧
  (r.pm25 ≠ 0 ∨ r.pm10 ≠ 0 → decodeOp op = .ok .queryDust)

/-- The invariant of the block. -/
structure Inv (s : State) : Prop where
  /-- A cycle with `rst_n = 0` has left the block idle with nothing to report (R230, R232). -/
  inReset : s.pins.rstN = false → s.phase = .idle ∧ s.done = false
  /-- BUSY = 1 exactly when the phase is not IDLE (R40). -/
  busyIff : s.busy = true ↔ s.phase ≠ .idle
  /-- While BUSY = 1, DONE and CODE are 0 (R29, R30). -/
  busyFlags : s.busy = true → s.done = false ∧ s.code = .none
  /-- DONE says that an operation has finished, so CODE is not NONE (R29). -/
  doneCode : s.done = true → s.code ≠ .none
  /-- LAST_OP is the op code of the running operation, or of the last one (R28, R30). -/
  opLatched : s.latch.op = s.lastOp
  /-- A TX phase belongs to an operation that transmits, and TXBUF holds a built frame (R115, R116). -/
  txPhase : s.inTx = true → s.txv = true ∧ ∃ i, runningOp s = .ok i ∧ transmits i = true
  /-- A SYNC or BODY phase belongs to an operation that receives (R137). -/
  rxPhase : s.inWindow = true → ∃ i, runningOp s = .ok i ∧ receives i = true
  /-- TXV = 1 says that TXBUF holds a well-formed frame (R44, R118). -/
  frameBuilt : s.txv = true → commandFrameOk s.txbuf = true
  /-- In SYNC no frame byte is captured and the cap is not reached (R132). -/
  syncCounts : s.phase = .sync → s.rxcount = 0 ∧ s.discards.toNat ≤ 19
  /-- In BODY(k+1), k + 1 frame bytes are captured (R134). -/
  bodyCounts : ∀ k, s.phase = .body k → s.rxcount.toNat = k.val + 1
  /-- The counters stay in their ranges (R36, R43). -/
  counts : s.rxcount.toNat ≤ 10 ∧ s.discards.toNat ≤ 20
  /-- RXBUF holds what RXCOUNT says (R38, R130). -/
  rxbufHolds : rxbufOk s
  /-- The window timer is in its range, and a window has a length (R43, R8). -/
  timer : s.wtimer ≤ s.rxTimeout ∧ 0 < s.rxTimeout
  /-- The code is one its operation may raise, and the receive state is the one it records (R200). -/
  codeRaised : raisedBy s.code s.lastOp ∧ recorded s
  /-- No partial record: the result registers are 0 unless CODE = OK (R45), and then only their operation's (R241). -/
  results : (s.code ≠ .ok → s.res = .zero) ∧ resultsOf s.res s.lastOp

end Sys2Proof.Machine
end

