-- ==== Sys2Proof/Certificates/Slice0/Obligations.lean ====
section
/-! DEFINITION. The statements about the model, for the provers. Each docstring names the rule of spec/ it formalises. -/

open Sys2Proof Sys2Proof.Machine

/-! ### Vocabulary of the statements, written out from the rules and not from the meanings -/

/-- The effect of `finish(code)` on the flags and the phase (R205), with the result registers as given (R45). -/
def Sys2Proof.Spec.finished (c : ResultCode) (r : Results) (s : State) : State :=
  { s with code := c, res := r, busy := false, done := true, phase := .idle }

/-- A cycle of an open window in which the byte at the front of the RX stream is transferred: the channel offers it, it
leaves the stream, and the timer counts down (R24, R131). -/
def Sys2Proof.Spec.offers (s : State) (b : Byte) (rest : List Byte) : Prop :=
  s.pins.rxOffer = true ∧ s.rxStream = b :: rest

/-- The state once the ninth body byte is captured (R134). -/
def Sys2Proof.Spec.afterLastByte (b : Byte) (rest : List Byte) (s : State) : State :=
  { s with rxStream := rest, wtimer := s.wtimer - 1, rxbuf := s.rxbuf.set 9 b, rxcount := 10 }

/-- The frame in RXBUF once the ninth body byte is captured. -/
def Sys2Proof.Spec.fullFrame (b : Byte) (s : State) : ResponseFrame := s.rxbuf.set 9 b

/-- The DISPATCH step of a command operation that asks `cmd` with the payload `p` (R160): its frame in TXBUF, TXV = 1, and
TXBUF[0] offered, or CHANNEL_CLOSED on a closed channel. -/
def Sys2Proof.Spec.requested (cmd : Byte) (p : List Byte) (s : State) : State :=
  if s.pins.chanOpen = true then { s with txbuf := frame cmd p s.latch.dest, txv := true, phase := .tx 0 }
  else finished .channelClosed s.res { s with txbuf := frame cmd p s.latch.dest, txv := true }

/-- What a command operation makes of a valid response: its code and result registers (R161 to R170). -/
def Sys2Proof.Spec.decoded (i : Instr) (l : Latch) (f : ResponseFrame) (r : Results) : ResultCode × Results :=
  match i with
  | .getSleep =>
    if f[4] = 0 then (.ok, { r with val := 1 }) else if f[4] = 1 then (.ok, { r with val := 0 }) else (.decodeFail, r)
  | .setSleep => (if f[4] = (if l.arg.getLsbD 0 then 0 else 1) then .ok else .logicalMismatch, r)
  | .getMode => if f[4] = 0 ∨ f[4] = 1 then (.ok, { r with val := f[4] }) else (.decodeFail, r)
  | .setMode => (if f[4].toNat = l.arg.toNat % 256 then .ok else .logicalMismatch, r)
  | .firmwareVersion =>
    (.ok, { r with year := f[3], month := f[4], day := f[5], fwid := BitVec.ofNat 16 (f[6].toNat * 256 + f[7].toNat) })
  | .queryDust =>
    if f[1] = 0xC0 then
      (.ok, { r with pm25 := BitVec.ofNat 16 (f[3].toNat * 256 + f[2].toNat),
                     pm10 := BitVec.ofNat 16 (f[5].toNat * 256 + f[4].toNat) })
    else (.decodeFail, r)
  | .setId => (if f[6].toNat * 256 + f[7].toNat = l.arg.toNat then .ok else .logicalMismatch, r)
  | .setWorkingPeriod => (if f[4].toNat = l.arg.toNat % 256 then .ok else .logicalMismatch, r)
  | .getWorkingPeriod => if f[4].toNat ≤ 30 then (.ok, { r with val := f[4] }) else (.decodeFail, r)
  | .build | .send | .receive => (.ok, r)

/-- The exact sum F[1] + ... + F[7] (R135). -/
def Sys2Proof.Spec.frameSum (f : ResponseFrame) : Nat :=
  f[1].toNat + f[2].toNat + f[3].toNat + f[4].toNat + f[5].toNat + f[6].toNat + f[7].toNat

/-- The state on which the engine acts in a cycle without reset: the inputs `c` are taken, a host write has acted as
`writeReg`, and `r` is the read data (R63, R69). -/
def Sys2Proof.Spec.accessed (c : CycleIn) (rest : List EnvStep) (r : Option Word) (s : State) : State :=
  if c.busWe = true then
    { writeReg c.busAddr c.busWdata { s with pins := c, rxStream := s.rxStream ++ c.rxArrive, env := rest } with busRdata := r }
  else { s with pins := c, rxStream := s.rxStream ++ c.rxArrive, env := rest, busRdata := r }

/-- The read data of a cycle without reset that starts in `s`: a read alone returns the register as `s` has it (R63, R69); a
cycle without a read returns none, and one with both strobes some value that is left open (log entry 9). -/
def Sys2Proof.Spec.readData (c : CycleIn) (r : Option Word) (s : State) : Prop :=
  if c.busRe = true then if c.busWe = true then r ≠ none else r = some (readReg c.busAddr s) else r = none

/-- The end of a cycle, in the model's own fields: the next free value of `tx_data` (log entry 8) and the cycle number (log
entry 1). -/
def Sys2Proof.Spec.cycleEnded (s : State) : State :=
  { s with txDataOff := Config.txDataOff s.cycle, cycle := s.cycle + 1 }

/-- A cycle in which the channel is open, accepts a byte and offers one, and the host does nothing. -/
def Sys2Proof.Spec.serveCycle : CycleIn := { quietCycle true with txReady := true, rxOffer := true }

/-! ### Encodings -/

/-- R90: op codes written out from the table decode to their operations, also as words of the table's rows; R92: a byte that
is none decodes to no operation. Tier 1. -/
def Obligations.OpCodeWordsDecode : Prop :=
  decodeTableWord 8 0x01 = some .build ∧ decodeTableWord 8 0x02 = some .send ∧ decodeTableWord 8 0x03 = some .receive ∧
  decodeTableWord 8 0x10 = some .getSleep ∧ decodeTableWord 8 0x11 = some .setSleep ∧
  decodeTableWord 8 0x12 = some .getMode ∧ decodeTableWord 8 0x13 = some .setMode ∧
  decodeTableWord 8 0x14 = some .firmwareVersion ∧ decodeTableWord 8 0x15 = some .queryDust ∧
  decodeTableWord 8 0x16 = some .setId ∧ decodeTableWord 8 0x17 = some .setWorkingPeriod ∧
  decodeTableWord 8 0x18 = some .getWorkingPeriod

/-- R92: exactly the bytes 0x00, 0x04 to 0x0F and 0x19 to 0xFF select no operation. -/
def Obligations.IllegalOpCodesAreThese : Prop :=
  ∀ op : Byte, (∀ i, decodeOp op ≠ .ok i) ↔
    op.toNat = 0 ∨ (4 ≤ op.toNat ∧ op.toNat ≤ 0x0F) ∨ 0x19 ≤ op.toNat

/-- R28, R88: decoding an operation's bytes gives it back with the rest of the list, an op code selects one operation only,
and bits [31:8] of a GO write are ignored. -/
def Obligations.OperationBytesRoundTrip : Prop :=
  (∀ (i : Instr) (rest : List Byte), decode (encode i ++ rest) = .ok (i, rest)) ∧
  (∀ (op : Byte) (i : Instr), decodeOp op = .ok i → [op] = encode i) ∧
  (∀ (hi : BitVec 24) (op : Byte), goByte (hi ++ op) = op)

/-- R80, R86, R87: every well-formed sensor command, with every operand and every destination, is read back from its
frame. -/
def Obligations.CommandFrameRoundTrip : Prop :=
  ∀ (c : WireCommand) (dest : Half), c.wf = true → parseCommand (encodeCommand c dest) = .ok (c, dest)

/-- The model's reader accepts nothing else: a frame that it reads as a command is that command's frame, byte for byte. R87
gives the rows only for frames that a command operation sent; that a frame with a wrong HEAD, CMD_ID, TAIL or checksum is
read as no command is the model's choice, log entry 16. -/
def Obligations.CommandFrameReadsOneWay : Prop :=
  ∀ (t : CommandFrame) (c : WireCommand) (dest : Half),
    parseCommand t = .ok (c, dest) → c.wf = true ∧ encodeCommand c dest = t

/-! ### Framing and transmission -/

/-- R110: the 19 bytes of frame(cmd, p, dest), for a payload of at most 12 bytes: the constants, the command, the
payload and then zero bytes (R111), the destination high byte first, and the checksum as an exact sum modulo 256. -/
def Obligations.FrameLayout : Prop :=
  ∀ (cmd : Byte) (p : List Byte) (dest : Half), payloadFits p = true →
    (frame cmd p dest)[0] = 0xAA ∧ (frame cmd p dest)[1] = 0xB4 ∧ (frame cmd p dest)[2] = cmd ∧
    (∀ (j : Nat) (hj : j < 12), (frame cmd p dest)[3 + j] = p.getD j 0) ∧
    (frame cmd p dest)[15].toNat = dest.toNat / 256 ∧ (frame cmd p dest)[16].toNat = dest.toNat % 256 ∧
    (frame cmd p dest)[17].toNat =
      (cmd.toNat + (p.map BitVec.toNat).sum + dest.toNat / 256 + dest.toNat % 256) % 256 ∧
    (frame cmd p dest)[18] = 0xAB

/-- R114: T[17] = sum8(T[2], ..., T[16]) in every frame, and padding adds nothing to it. -/
def Obligations.FrameChecksumCoverage : Prop :=
  ∀ (cmd : Byte) (p : List Byte) (dest : Half), payloadFits p = true →
    (frame cmd p dest)[17] = sum8 (((frame cmd p dest).toList.drop 2).take 15) ∧
    (frame cmd p dest)[17] = sum8 ([cmd] ++ p ++ [hiByte dest, loByte dest])

/-- R113: BUILD, in its one step. L_PLEN ≤ 12 loads the frame of L_CMD, L_PAYLOAD[0..L_PLEN−1] and L_DEST into TXBUF,
sets TXV and finishes OK; a longer payload clears TXV and finishes PRECONDITION. Nothing else changes, whatever the
channel does. -/
def Obligations.BuildRule : Prop :=
  ∀ s : State, s.phase = .dispatch →
    exec .build s = .next
      (if s.latch.plen.toNat ≤ 12 then
        Spec.finished .ok s.res
          { s with txbuf := frame s.latch.cmd (s.latch.payload.toList.take s.latch.plen.toNat) s.latch.dest, txv := true }
       else Spec.finished .precondition s.res { s with txv := false })

/-- R112: BUILD with L_PLEN > 12 finishes PRECONDITION, clears TXV and leaves TXBUF and the channel unchanged. -/
def Obligations.BuildRefusesLongPayload : Prop :=
  ∀ s : State, s.phase = .dispatch → 12 < s.latch.plen.toNat →
    exec .build s = .next (Spec.finished .precondition s.res { s with txv := false })

/-- R115: SEND. Its DISPATCH step finishes PRECONDITION without a built frame, CHANNEL_CLOSED on a closed channel, and else
offers TXBUF[0]; and it finishes OK in the step of the TX(18) transfer. -/
def Obligations.SendRule : Prop :=
  ∀ s : State,
    (s.phase = .dispatch → exec .send s = .next
      (if s.txv = false then Spec.finished .precondition s.res s
       else if s.pins.chanOpen = false then Spec.finished .channelClosed s.res s
       else { s with phase := .tx 0 })) ∧
    (s.phase = .tx 18 → s.pins.txReady = true →
      exec .send s = .next (Spec.finished .ok s.res { s with txStream := s.txStream ++ [s.txbuf[18]] }))

/-- R116, R23, R243: in TX(i), SEND and every command hold everything while the channel does not accept the byte; when it
does, TXBUF[i] joins the TX stream, and before TX(18) the next byte is offered. -/
def Obligations.TransmitOneByte : Prop :=
  ∀ (i : Instr) (s : State) (k : Nat) (hk : k < 19), transmits i = true → s.phase = .tx ⟨k, hk⟩ →
    (s.pins.txReady = false → exec i s = .next s) ∧
    (∀ hk' : k + 1 < 19, s.pins.txReady = true →
      exec i s = .next { s with txStream := s.txStream ++ [s.txbuf[k]], phase := .tx ⟨k + 1, hk'⟩ })

/-- R116, R61, R243: over any cycles without reset, whatever the host does, a write phase sends the bytes of TXBUF in index
order, one for each cycle in which the channel accepts one, and nothing between them; with none accepted it stalls, however
long. -/
def Obligations.WritePhaseSendsInOrder : Prop :=
  ∀ (i : Instr) (s : State) (cs : List CycleIn) (rest : List EnvStep),
    s.busy = true → runningOp s = .ok i → transmits i = true → s.phase = .tx 0 →
    (∀ c ∈ cs, c.rstN = true) → ∀ hn : cs.countP (·.txReady) < 19, s.env = cs.map EnvStep.cycle ++ rest →
    ∃ t, runCycles cs.length s = .next t ∧ t.env = rest ∧ t.busy = true ∧ t.txbuf = s.txbuf ∧
      t.phase = .tx ⟨cs.countP (·.txReady), hn⟩ ∧
      t.txStream = s.txStream ++ s.txbuf.toList.take (cs.countP (·.txReady))

/-! ### Receiving -/

/-- R130, R131: a receive phase clears RXBUF, RXCOUNT and DISCARDS and opens a sync window of RX_TIMEOUT_CYCLES, in
RECEIVE's DISPATCH step whatever `chan_open` is (R138), and in a command's TX(18) step. -/
def Obligations.ReceivePhaseStarts : Prop :=
  (∀ s : State, s.phase = .dispatch →
    exec .receive s = .next { s with rxbuf := Vector.replicate 10 0, rxcount := 0, discards := 0,
                                     phase := .sync, wtimer := s.rxTimeout }) ∧
  (∀ (i : Instr) (s : State), isCommand i = true → s.phase = .tx 18 → s.pins.txReady = true →
    exec i s = .next { s with txStream := s.txStream ++ [s.txbuf[18]], rxbuf := Vector.replicate 10 0, rxcount := 0,
                              discards := 0, phase := .sync, wtimer := s.rxTimeout })

/-- R132, R133: a byte in SYNC. HEAD is captured and opens the body window; any other byte is discarded and counted, and a
fresh window opens, but the 20th discard finishes SYNC_FAIL; the bytes behind it stay in the channel. -/
def Obligations.SyncByteRule : Prop :=
  ∀ (i : Instr) (s : State) (b : Byte) (rest : List Byte), receives i = true → s.phase = .sync → Spec.offers s b rest →
    (b = 0xAA → exec i s = .next { s with rxStream := rest, rxbuf := s.rxbuf.set 0 0xAA, rxcount := 1,
                                          phase := .body 0, wtimer := s.rxTimeout }) ∧
    (b ≠ 0xAA → s.discards.toNat < 19 →
      exec i s = .next { s with rxStream := rest, discards := s.discards + 1, phase := .sync, wtimer := s.rxTimeout }) ∧
    (b ≠ 0xAA → s.discards.toNat = 19 →
      exec i s = .next (Spec.finished .syncFail s.res
        { s with rxStream := rest, discards := 20, wtimer := s.wtimer - 1 }))

/-- R131, R134, R139: a cycle of a window with no byte transferred counts the timer down; when it reaches 0 a sync window
ends the operation with TIMEOUT, whatever was discarded before, and a body window with BODY_INCOMPLETE. -/
def Obligations.WindowExpiryRule : Prop :=
  ∀ (i : Instr) (s : State), receives i = true → s.pins.rxOffer = false ∨ s.rxStream = [] →
    (s.phase = .sync → exec i s = .next
      (if s.wtimer ≤ 1 then Spec.finished .timeout s.res { s with wtimer := 0 } else { s with wtimer := s.wtimer - 1 })) ∧
    (∀ k, s.phase = .body k → exec i s = .next
      (if s.wtimer ≤ 1 then Spec.finished .bodyIncomplete s.res { s with wtimer := 0 }
       else { s with wtimer := s.wtimer - 1 }))

/-- R134: body byte F[k], k = 1..8, is captured as it comes, 0xAA too, and the next one is awaited in the same window. That
this holds also with the timer at 0, and that a byte F[1] to F[9] offered there does what it does in the window's last cycle
(second clause), is the model's reading, log entry 5. -/
def Obligations.BodyByteRule : Prop :=
  (∀ (i : Instr) (s : State) (b : Byte) (rest : List Byte) (k : Nat) (hk : k < 8),
    receives i = true → s.phase = .body ⟨k, by omega⟩ → Spec.offers s b rest →
    exec i s = .next { s with rxStream := rest, wtimer := s.wtimer - 1, rxbuf := s.rxbuf.set (k + 1) b,
                              rxcount := BitVec.ofNat 4 (k + 2), phase := .body ⟨k + 1, by omega⟩ }) ∧
  (∀ (i : Instr) (s : State) (b : Byte) (rest : List Byte) (k : Fin 9),
    receives i = true → s.phase = .body k → Spec.offers s b rest →
    exec i { s with wtimer := 0 } = exec i { s with wtimer := 1 })

/-- R135, R136: in the step of the ninth body byte a wrong checksum finishes BAD_CHECKSUM whatever the tail, and a right one
with a wrong tail BAD_TAIL; RXBUF keeps the raw bytes and no result register is written. F[1..8] stand in RXBUF, F[9] is the
byte `b`. That it holds with the timer at 0 too is log entry 5. -/
def Obligations.BadFramesRejected : Prop :=
  ∀ (i : Instr) (s : State) (b : Byte) (rest : List Byte), receives i = true → s.phase = .body 8 → Spec.offers s b rest →
    (Spec.frameSum s.rxbuf % 256 ≠ s.rxbuf[8].toNat →
      exec i s = .next (Spec.finished .badChecksum s.res (Spec.afterLastByte b rest s))) ∧
    (Spec.frameSum s.rxbuf % 256 = s.rxbuf[8].toNat → b ≠ 0xAB →
      exec i s = .next (Spec.finished .badTail s.res (Spec.afterLastByte b rest s)))

/-- R135, R136: a response is valid iff (F[1] + ... + F[7]) mod 256 = F[8], an exact sum, and F[9] = 0xAB. -/
def Obligations.ResponseValidity : Prop :=
  ∀ f : ResponseFrame, responseValid f = true ↔
    Spec.frameSum f % 256 = f[8].toNat ∧ f[9] = 0xAB

/-- R138: RECEIVE finishes OK on a valid frame and writes no result register. That it holds with the timer at 0 too is log
entry 5. -/
def Obligations.ReceiveCompletes : Prop :=
  ∀ (s : State) (b : Byte) (rest : List Byte), s.phase = .body 8 → Spec.offers s b rest →
    responseValid (Spec.fullFrame b s) = true →
    exec .receive s = .next (Spec.finished .ok s.res (Spec.afterLastByte b rest s))

/-- R142: changing any one byte of a valid frame among F[1..9] makes it invalid. -/
def Obligations.SingleByteErrorsDetected : Prop :=
  ∀ (f : ResponseFrame) (p : Nat) (hp : p < 10) (b : Byte), responseValid f = true → 1 ≤ p → b ≠ f[p] →
    responseValid (f.set p b) = false

/-- R133: in a receive phase whose channel keeps offering bytes, HEAD behind at most 19 discards in all is found, with
DISCARDS counting every noise byte; 20 discards finish SYNC_FAIL, and what follows stays in the channel. The host may do
anything meanwhile, except reset. -/
def Obligations.SyncToleratesNineteen : Prop :=
  ∀ (i : Instr) (s : State) (noise rest : List Byte) (cs : List CycleIn) (env : List EnvStep),
    s.busy = true → runningOp s = .ok i → receives i = true → s.phase = .sync → (∀ b ∈ noise, b ≠ 0xAA) →
    (∀ c ∈ cs, c.rstN = true ∧ c.rxOffer = true ∧ c.rxArrive = []) → s.env = cs.map EnvStep.cycle ++ env →
    (s.discards.toNat + noise.length ≤ 19 → s.rxStream = noise ++ 0xAA :: rest → cs.length = noise.length + 1 →
      ∃ t, runCycles cs.length s = .next t ∧ t.phase = .body 0 ∧ t.rxcount = 1 ∧ t.rxbuf = s.rxbuf.set 0 0xAA ∧
        t.discards.toNat = s.discards.toNat + noise.length ∧ t.rxStream = rest ∧ t.busy = true) ∧
    (s.discards.toNat + noise.length = 20 → noise ≠ [] → s.rxStream = noise ++ rest → cs.length = noise.length →
      ∃ t, runCycles cs.length s = .next t ∧ t.phase = .idle ∧ t.busy = false ∧ t.done = true ∧ t.code = .syncFail ∧
        t.discards.toNat = 20 ∧ t.rxbuf = s.rxbuf ∧ t.rxStream = rest)

/-- R140: a receive phase ends, within 21 windows of RX_TIMEOUT_CYCLES and one step for each of at most 29 bytes,
whatever the channel offers and the host does short of reset. -/
def Obligations.ReceivePhaseEnds : Prop :=
  ∀ s : State, Inv s → s.phase = .sync → s.discards = 0 → s.wtimer = s.rxTimeout →
    (∀ e ∈ s.env, e.noReset = true) → 21 * s.rxTimeout + 29 ≤ s.env.length →
    ∃ k t, k ≤ 21 * s.rxTimeout + 29 ∧ runCycles k s = .next t ∧ t.phase = .idle ∧ t.busy = false ∧ t.done = true

/-! ### The sensor commands. The rules R161 to R170 are stated of a last byte that comes inside the body window, 0 < wtimer;
of one offered with the timer at 0, BodyByteRule says that it does the same (log entry 5). -/

/-- R160, R117, R86: the DISPATCH step of a command whose precondition holds builds its own frame for L_DEST, sets TXV, and
then offers TXBUF[0], or on a closed channel finishes CHANNEL_CLOSED with the frame built and nothing sent. -/
def Obligations.CommandRequest : Prop :=
  ∀ (i : Instr) (s : State) (c : WireCommand), s.phase = .dispatch → requestOf i s.latch = some c →
    exec i s = .next
      (if s.pins.chanOpen = true then
        { s with txbuf := encodeCommand c s.latch.dest, txv := true, phase := .tx 0 }
       else Spec.finished .channelClosed s.res { s with txbuf := encodeCommand c s.latch.dest, txv := true })

/-- R169, R203(c): SET_WORKING_PERIOD with a period above 30 finishes PRECONDITION: no build, no byte sent, TXBUF and TXV
unchanged. -/
def Obligations.PeriodAboveThirtyRefused : Prop :=
  ∀ s : State, s.phase = .dispatch → 30 < s.latch.arg.toNat →
    exec .setWorkingPeriod s = .next (Spec.finished .precondition s.res s)

/-- R161: GET_SLEEP asks 6 [0, 0]. On a valid frame RES_VAL is 1 (sleeping) iff F[4] = 0; F[4] above 1 is DECODE_FAIL. -/
def Obligations.GetSleepRule : Prop :=
  ∀ (s : State) (b : Byte) (rest : List Byte),
    (s.phase = .dispatch → exec .getSleep s = .next (Spec.requested 6 [0, 0] s)) ∧
    (s.phase = .body 8 → 0 < s.wtimer → Spec.offers s b rest → responseValid (Spec.fullFrame b s) = true →
        exec .getSleep s = .next
          (if s.rxbuf[4] = 0 then Spec.finished .ok { s.res with val := 1 } (Spec.afterLastByte b rest s)
           else if s.rxbuf[4] = 1 then Spec.finished .ok { s.res with val := 0 } (Spec.afterLastByte b rest s)
           else Spec.finished .decodeFail s.res (Spec.afterLastByte b rest s)))

/-- R162: SET_SLEEP asks 6 [1, 0 if L_ARG[0] else 1]. On a valid frame it is OK iff the echo F[4] is 0 for sleep = 1, 1
for sleep = 0. -/
def Obligations.SetSleepRule : Prop :=
  ∀ (s : State) (b : Byte) (rest : List Byte),
    (s.phase = .dispatch → exec .setSleep s = .next (Spec.requested 6 [1, if s.latch.arg.getLsbD 0 = true then 0 else 1] s)) ∧
    (s.phase = .body 8 → 0 < s.wtimer → Spec.offers s b rest → responseValid (Spec.fullFrame b s) = true →
        exec .setSleep s = .next (Spec.finished
          (if s.rxbuf[4] = (if s.latch.arg.getLsbD 0 = true then 0 else 1) then .ok else .logicalMismatch) s.res
          (Spec.afterLastByte b rest s)))

/-- R163: GET_MODE asks 2 [0, 0]. On a valid frame RES_VAL = F[4] if it is 0 or 1, else DECODE_FAIL. -/
def Obligations.GetModeRule : Prop :=
  ∀ (s : State) (b : Byte) (rest : List Byte),
    (s.phase = .dispatch → exec .getMode s = .next (Spec.requested 2 [0, 0] s)) ∧
    (s.phase = .body 8 → 0 < s.wtimer → Spec.offers s b rest → responseValid (Spec.fullFrame b s) = true →
        exec .getMode s = .next
          (if s.rxbuf[4] = 0 ∨ s.rxbuf[4] = 1 then
            Spec.finished .ok { s.res with val := s.rxbuf[4] } (Spec.afterLastByte b rest s)
           else Spec.finished .decodeFail s.res (Spec.afterLastByte b rest s)))

/-- R164: SET_MODE asks 2 [1, L_ARG[7:0]]. On a valid frame it is OK iff the echo F[4] is L_ARG[7:0]. -/
def Obligations.SetModeRule : Prop :=
  ∀ (s : State) (b : Byte) (rest : List Byte),
    (s.phase = .dispatch → exec .setMode s = .next (Spec.requested 2 [1, BitVec.ofNat 8 s.latch.arg.toNat] s)) ∧
    (s.phase = .body 8 → 0 < s.wtimer → Spec.offers s b rest → responseValid (Spec.fullFrame b s) = true →
        exec .setMode s = .next (Spec.finished
          (if s.rxbuf[4].toNat = s.latch.arg.toNat % 256 then .ok else .logicalMismatch) s.res (Spec.afterLastByte b rest s)))

/-- R165, R166: FIRMWARE_VERSION asks 7 []. On a valid frame YEAR = F[3], MONTH = F[4], DAY = F[5], raw, and ID =
F[6]·256 + F[7]; it has no decode failure. -/
def Obligations.FirmwareVersionRule : Prop :=
  ∀ (s : State) (b : Byte) (rest : List Byte),
    (s.phase = .dispatch → exec .firmwareVersion s = .next (Spec.requested 7 [] s)) ∧
    (s.phase = .body 8 → 0 < s.wtimer → Spec.offers s b rest → responseValid (Spec.fullFrame b s) = true →
        exec .firmwareVersion s = .next (Spec.finished .ok
          { s.res with year := s.rxbuf[3], month := s.rxbuf[4], day := s.rxbuf[5],
                       fwid := BitVec.ofNat 16 (s.rxbuf[6].toNat * 256 + s.rxbuf[7].toNat) }
          (Spec.afterLastByte b rest s)))

/-- R167, R62(c): QUERY_DUST asks 4 []. On a valid frame F[1] = 0xC0 gives PM25_RAW = F[2] + 256·F[3] and PM10_RAW =
F[4] + 256·F[5]; any other RESPONSE_ID is DECODE_FAIL. -/
def Obligations.QueryDustRule : Prop :=
  ∀ (s : State) (b : Byte) (rest : List Byte),
    (s.phase = .dispatch → exec .queryDust s = .next (Spec.requested 4 [] s)) ∧
    (s.phase = .body 8 → 0 < s.wtimer → Spec.offers s b rest → responseValid (Spec.fullFrame b s) = true →
        exec .queryDust s = .next
          (if s.rxbuf[1] = 0xC0 then
            Spec.finished .ok
              { s.res with pm25 := BitVec.ofNat 16 (s.rxbuf[2].toNat + 256 * s.rxbuf[3].toNat),
                           pm10 := BitVec.ofNat 16 (s.rxbuf[4].toNat + 256 * s.rxbuf[5].toNat) }
              (Spec.afterLastByte b rest s)
           else Spec.finished .decodeFail s.res (Spec.afterLastByte b rest s)))

/-- R168: SET_ID asks 5 with the new id in T[13..14]. On a valid frame it is OK iff F[6] and F[7] are the new id's high
and low byte; DEST is unchanged. -/
def Obligations.SetIdRule : Prop :=
  ∀ (s : State) (b : Byte) (rest : List Byte),
    (s.phase = .dispatch → exec .setId s = .next (Spec.requested 5
        [0, 0, 0, 0, 0, 0, 0, 0, 0, 0, BitVec.ofNat 8 (s.latch.arg.toNat / 256), BitVec.ofNat 8 s.latch.arg.toNat] s)) ∧
    (s.phase = .body 8 → 0 < s.wtimer → Spec.offers s b rest → responseValid (Spec.fullFrame b s) = true →
        exec .setId s = .next (Spec.finished
          (if s.rxbuf[6].toNat = s.latch.arg.toNat / 256 ∧ s.rxbuf[7].toNat = s.latch.arg.toNat % 256 then .ok
           else .logicalMismatch) s.res (Spec.afterLastByte b rest s)))

/-- R169: SET_WORKING_PERIOD finishes PRECONDITION on a period above 30, and else asks 8 [1, period]. On a valid frame
it is OK iff the echo F[4] is the period's low byte. -/
def Obligations.SetWorkingPeriodRule : Prop :=
  ∀ (s : State) (b : Byte) (rest : List Byte),
    (s.phase = .dispatch → exec .setWorkingPeriod s = .next
      (if 30 < s.latch.arg.toNat then Spec.finished .precondition s.res s
       else Spec.requested 8 [1, BitVec.ofNat 8 s.latch.arg.toNat] s)) ∧
    (s.phase = .body 8 → 0 < s.wtimer → Spec.offers s b rest → responseValid (Spec.fullFrame b s) = true →
        exec .setWorkingPeriod s = .next (Spec.finished
          (if s.rxbuf[4].toNat = s.latch.arg.toNat % 256 then .ok else .logicalMismatch) s.res (Spec.afterLastByte b rest s)))

/-- R170: GET_WORKING_PERIOD asks 8 [0]. On a valid frame RES_VAL = F[4] if it is at most 30, else DECODE_FAIL. -/
def Obligations.GetWorkingPeriodRule : Prop :=
  ∀ (s : State) (b : Byte) (rest : List Byte),
    (s.phase = .dispatch → exec .getWorkingPeriod s = .next (Spec.requested 8 [0] s)) ∧
    (s.phase = .body 8 → 0 < s.wtimer → Spec.offers s b rest → responseValid (Spec.fullFrame b s) = true →
        exec .getWorkingPeriod s = .next
          (if s.rxbuf[4].toNat ≤ 30 then
            Spec.finished .ok { s.res with val := s.rxbuf[4] } (Spec.afterLastByte b rest s)
           else Spec.finished .decodeFail s.res (Spec.afterLastByte b rest s)))

/-- R160, R206: a command on an open channel that accepts every byte and then offers at most 19 noise bytes and a valid
frame runs from DISPATCH to its finish: it sends exactly its own frame, takes exactly the noise and the response, and
reports what its rule makes of the response. The window may be of any length: where RX_TIMEOUT_CYCLES (R131) is below 9, the
later body bytes come past it and are taken all the same, which is the model's reading, log entry 5. -/
def Obligations.CommandRunsToFinish : Prop :=
  ∀ (i : Instr) (s : State) (c : WireCommand) (noise later : List Byte) (f : ResponseFrame) (env : List EnvStep),
    s.busy = true → runningOp s = .ok i → s.phase = .dispatch → requestOf i s.latch = some c →
    noise.length ≤ 19 → (∀ b ∈ noise, b ≠ 0xAA) → f[0] = 0xAA → responseValid f = true →
    s.rxStream = noise ++ f.toList ++ later →
    s.env = List.replicate (30 + noise.length) (.cycle Spec.serveCycle) ++ env →
    ∃ t, runCycles (30 + noise.length) s = .next t ∧
      t.phase = .idle ∧ t.busy = false ∧ t.done = true ∧ (t.code, t.res) = Spec.decoded i s.latch f s.res ∧
      t.txStream = s.txStream ++ (encodeCommand c s.latch.dest).toList ∧
      t.txbuf = encodeCommand c s.latch.dest ∧ t.txv = true ∧
      t.rxbuf = f ∧ t.rxcount = 10 ∧ t.discards.toNat = noise.length ∧ t.rxStream = later ∧
      t.cfg = s.cfg ∧ t.collide = s.collide ∧ t.lastOp = s.lastOp ∧ t.env = env

/-- R235: no command depends on an earlier operation's frames: its DISPATCH step does not read TXBUF or TXV, unless its
precondition fails, and its receive phase starts the same whatever RXBUF and the counters held. -/
def Obligations.CommandsIgnoreEarlierFrames : Prop :=
  ∀ (i : Instr) (s : State) (tb : CommandFrame) (tv : Bool) (rb : ResponseFrame) (n : BitVec 4) (d : BitVec 5) (w : Nat),
    isCommand i = true →
    (s.phase = .dispatch → requestOf i s.latch ≠ none →
      exec i { s with txbuf := tb, txv := tv } = exec i s) ∧
    (s.phase = .tx 18 → s.pins.txReady = true →
      exec i { s with rxbuf := rb, rxcount := n, discards := d, wtimer := w } = exec i s)

/-! ### The host's registers -/

/-- R30: a GO write. While BUSY = 1 it sets COLLIDE and does nothing else; in an idle block it latches the operands, clears
DONE, CODE and the results, sets BUSY, and leaves the engine in DISPATCH. -/
def Obligations.GoWriteRule : Prop :=
  ∀ (s : State) (a : BitVec 8) (v : Word), a.toNat / 4 = 0 →
    writeReg a v s =
      (if s.busy = true then { s with collide := true }
       else { s with
        lastOp := v.extractLsb' 0 8, busy := true, done := false, code := .none, res := .zero, phase := .dispatch,
        latch := { op := v.extractLsb' 0 8, dest := s.cfg.dest, arg := s.cfg.arg, cmd := s.cfg.cmd, plen := s.cfg.plen,
                   payload := s.cfg.payload } })

/-- R30, R41: the cycle of a GO write in an idle block completes nothing. It leaves the operation in DISPATCH with BUSY
= 1 and its operands latched. -/
def Obligations.GoCycleLeavesDispatch : Prop :=
  ∀ (s : State) (c : CycleIn) (rest : List EnvStep), Inv s → s.phase = .idle → s.env = .cycle c :: rest → c.rstN = true →
    c.busWe = true → c.busAddr.toNat / 4 = 0 →
    ∃ t, step s = .next t ∧ t.phase = .dispatch ∧ t.busy = true ∧ t.done = false ∧ t.code = .none ∧ t.res = .zero ∧
      t.lastOp = c.busWdata.extractLsb' 0 8 ∧ t.collide = s.collide ∧ t.cfg = s.cfg ∧ t.env = rest ∧
      t.latch = { op := c.busWdata.extractLsb' 0 8, dest := s.cfg.dest, arg := s.cfg.arg, cmd := s.cfg.cmd,
                  plen := s.cfg.plen, payload := s.cfg.payload }

/-- R29: a STATUS write clears DONE where bit 1 is 1 and COLLIDE where bit 2 is 1, and changes nothing else. -/
def Obligations.StatusWriteOneToClear : Prop :=
  ∀ (s : State) (a : BitVec 8) (v : Word), a.toNat / 4 = 1 →
    writeReg a v s = { s with
      done := if v.getLsbD 1 = true then false else s.done
      collide := if v.getLsbD 2 = true then false else s.collide }

/-- R31 to R35, R39: IRQ_EN, DEST, ARG, BCMD and PAYLOAD0..2 hold the bits written in their fields, and their reserved bits
read 0. -/
def Obligations.OperandRegistersHoldWrites : Prop :=
  ∀ (s : State) (a : BitVec 8) (v : Word), 2 ≤ a.toNat / 4 → a.toNat / 4 ≤ 8 →
    readReg a (writeReg a v s) =
      (if a.toNat / 4 = 2 then v &&& 0x00000001
       else if a.toNat / 4 = 3 then v &&& 0x0000FFFF
       else if a.toNat / 4 = 4 then v &&& 0x0000FFFF
       else if a.toNat / 4 = 5 then v &&& 0x00000FFF
       else v)

/-- R65, R42, R242: a write of an operand register changes no other register's value, and no state but the host's operand
registers: with those put back, every field is as before, the latched operands, the phase, the timer and the streams of a
running operation too. A write of a read-only register or an unlisted offset changes nothing at all. -/
def Obligations.WritesTouchOneRegister : Prop :=
  (∀ (s : State) (a b : BitVec 8) (v : Word), 2 ≤ a.toNat / 4 → a.toNat / 4 ≠ b.toNat / 4 →
    readReg b (writeReg a v s) = readReg b s) ∧
  (∀ (s : State) (a : BitVec 8) (v : Word), 2 ≤ a.toNat / 4 → a.toNat / 4 ≤ 8 →
    { writeReg a v s with cfg := s.cfg } = s) ∧
  (∀ (s : State) (a : BitVec 8) (v : Word), 9 ≤ a.toNat / 4 → writeReg a v s = s)

/-- R60: byte 4j+i of PAYLOAD, TXBUF and RXBUF is read in bits [8i+7:8i] of the register at index j. -/
def Obligations.BuffersPackLittleEndian : Prop :=
  ∀ (s : State) (j i : Nat), i < 4 →
    (∀ h : 4 * j + i < 12, (readReg (BitVec.ofNat 8 (0x18 + 4 * j)) s).extractLsb' (8 * i) 8 = s.cfg.payload[4 * j + i]) ∧
    (∀ h : 4 * j + i < 19, (readReg (BitVec.ofNat 8 (0x40 + 4 * j)) s).extractLsb' (8 * i) 8 = s.txbuf[4 * j + i]) ∧
    (∀ h : 4 * j + i < 10, (readReg (BitVec.ofNat 8 (0x60 + 4 * j)) s).extractLsb' (8 * i) 8 = s.rxbuf[4 * j + i])

/-- R29, R36: the fields of STATUS and RXINFO as numbers: BUSY + 2·DONE + 4·COLLIDE + 256·CODE, and
RXCOUNT + 256·DISCARDS + 65536·TXV; every other bit is 0. -/
def Obligations.StatusAndRxinfoFields : Prop :=
  ∀ s : State,
    (readReg 0x04 s).toNat = s.busy.toNat + 2 * s.done.toNat + 4 * s.collide.toNat + 256 * s.code.bits.toNat ∧
    (readReg 0x24 s).toNat = s.rxcount.toNat + 256 * s.discards.toNat + 65536 * s.txv.toNat

/-- R28, R31 to R34, R37 to R39: GO reads LAST_OP; IRQ_EN, DEST, ARG, BCMD, RES_VAL, FW, FWID and PM read their fields, and 0
in every other bit; the reserved bits TXBUF4[31:24] and RXBUF2[31:16] read 0; and every unlisted offset reads 0. -/
def Obligations.ResultRegistersRead : Prop :=
  ∀ s : State,
    (readReg 0x00 s).toNat = s.lastOp.toNat ∧
    (readReg 0x08 s).toNat = s.cfg.doneIe.toNat ∧
    (readReg 0x0C s).toNat = s.cfg.dest.toNat ∧
    (readReg 0x10 s).toNat = s.cfg.arg.toNat ∧
    (readReg 0x14 s).toNat = s.cfg.cmd.toNat + 256 * s.cfg.plen.toNat ∧
    (readReg 0x28 s).toNat = s.res.val.toNat ∧
    (readReg 0x2C s).toNat = s.res.year.toNat + 256 * s.res.month.toNat + 65536 * s.res.day.toNat ∧
    (readReg 0x30 s).toNat = s.res.fwid.toNat ∧
    (readReg 0x34 s).toNat = s.res.pm25.toNat + 65536 * s.res.pm10.toNat ∧
    (readReg 0x50 s).extractLsb' 24 8 = 0 ∧
    (readReg 0x68 s).extractLsb' 16 16 = 0 ∧
    (∀ a : BitVec 8, 14 ≤ a.toNat / 4 → a.toNat / 4 ≤ 15 ∨ (21 ≤ a.toNat / 4 ∧ a.toNat / 4 ≤ 23) ∨ 27 ≤ a.toNat / 4 →
      readReg a s = 0)

/-- R200: the twelve values of STATUS.CODE; 12 to 15 are never produced (R93(a)). -/
def Obligations.ResultCodeValues : Prop :=
  ∀ (c : ResultCode) (s : State), (finish c s).code = c ∧
    ((readReg 0x04 (finish c s)).extractLsb' 8 4).toNat =
      (match c with
        | .none => 0 | .ok => 1 | .timeout => 2 | .syncFail => 3 | .bodyIncomplete => 4 | .badChecksum => 5 | .badTail => 6
        | .decodeFail => 7 | .logicalMismatch => 8 | .precondition => 9 | .illegalOp => 10 | .channelClosed => 11)

/-! ### One cycle -/

/-- R63, R65: a host read has no side effect. A cycle with a read leaves what the same cycle without it leaves, but for the
port levels and the read data. -/
def Obligations.ReadsHaveNoSideEffect : Prop :=
  ∀ (s t : State) (c : CycleIn) (rest : List EnvStep), c.busWe = false → s.env = .cycle c :: rest → step s = .next t →
    step { s with env := .cycle { c with busRe := false } :: rest } =
      .next { t with pins := { t.pins with busRe := false }, busRdata := none }

/-- R91, R63, R69: in a cycle without reset in which the engine is active, the step is the running operation's cycle on the
state after the host's access, and then the cycle ends. Second clause, for a listed cycle of a running operation: a host
write has acted as `writeReg` and a read alone returns `readReg` of the state before the step. The end of a cycle and the
read data without a read or with both strobes are the model's choice, log entries 1, 8 and 9. -/
def Obligations.StepRunsOperation : Prop :=
  (∀ (s : State) (i : Instr), (nextInputs s).pins.rstN = true → engineActive (nextInputs s) = true →
    decode [(hostAccess (nextInputs s)).latch.op] = .ok (i, []) → i.wf = true →
    step s = (match exec i (hostAccess (nextInputs s)) with
      | .next t => .next (Spec.cycleEnded t)
      | .fault r => .fault r
      | .refused r => .refused r)) ∧
  (∀ (s : State) (i : Instr) (c : CycleIn) (rest : List EnvStep), s.busy = true → s.phase ≠ .idle →
    (s.phase = .dispatch → c.dispatchHold = false) → decode [s.latch.op] = .ok (i, []) → s.env = .cycle c :: rest →
    c.rstN = true →
    ∃ r, Spec.readData c r s ∧
      step s = (match exec i (Spec.accessed c rest r s) with
        | .next t => .next (Spec.cycleEnded t)
        | .fault e => .fault e
        | .refused e => .refused e))

/-- R30, R90: a placed operation is the one the next step runs: GO's effect, then the DISPATCH step of the decoded
operation. -/
def Obligations.PlacedOperationRuns : Prop :=
  ∀ (s : State) (w : Nat) (i : Instr), decodeTableWord 8 w = some i →
    step (s.withFetchWord 8 w) = thenEndCycle (exec i
      { s with
        lastOp := opCode i, busy := true, done := false, code := .none, res := .zero, phase := .dispatch,
        latch := { op := opCode i, dest := s.cfg.dest, arg := s.cfg.arg, cmd := s.cfg.cmd, plen := s.cfg.plen,
                   payload := s.cfg.payload }
        pins := quietCycle true, busRdata := none })

/-- R92, R201: an op code that is no operation finishes ILLEGAL_OP in its DISPATCH step, whatever the host accesses in that
cycle (R69: its access acts first): no transfer, and TXBUF, TXV, RXBUF and RXINFO unchanged. The equality says in addition
what the model's own fields do, which is no rule of the spec: log entries 1 and 8 (`cycleEnded`) and 9 (`readData`). -/
def Obligations.UnlistedOpFinishesIllegal : Prop :=
  ∀ (s : State) (c : CycleIn) (rest : List EnvStep), s.busy = true → s.phase = .dispatch → (∀ i, runningOp s ≠ .ok i) →
    s.env = .cycle c :: rest → c.rstN = true → c.dispatchHold = false →
    ∃ r t, Spec.readData c r s ∧ step s = .next t ∧
      t = Spec.cycleEnded (Spec.finished .illegalOp s.res (Spec.accessed c rest r s)) ∧
      t.txStream = s.txStream ∧ t.rxStream = s.rxStream ++ c.rxArrive ∧ t.txbuf = s.txbuf ∧ t.txv = s.txv ∧
      t.rxbuf = s.rxbuf ∧ t.rxcount = s.rxcount ∧ t.discards = s.discards

/-- R230, R231, R232: a cycle with `rst_n = 0` leaves every state element of the block at its reset value, whatever ran and
whatever the host asked, and a read alone returns the register's reset value, 0x0000FFFF at DEST and 0 elsewhere; the channel
keeps what it took and what it holds. That no byte is transferred in such a cycle, the last two clauses, is the model's
reading of R230, R231, R23 and R24, log entry 19. -/
def Obligations.ResetCycleRestores : Prop :=
  ∀ (s : State) (c : CycleIn) (rest : List EnvStep), s.env = .cycle c :: rest → c.rstN = false →
    ∃ t, step s = .next t ∧
      t.lastOp = 0 ∧ t.busy = false ∧ t.done = false ∧ t.collide = false ∧ t.code = .none ∧
      t.cfg = { doneIe := false, dest := 0xFFFF, arg := 0, cmd := 0, plen := 0, payload := Vector.replicate 12 0 } ∧
      t.res = .zero ∧ t.txbuf = Vector.replicate 19 0 ∧ t.txv = false ∧ t.rxbuf = Vector.replicate 10 0 ∧
      t.rxcount = 0 ∧ t.discards = 0 ∧ t.phase = .idle ∧ t.wtimer = 0 ∧
      t.txValid = false ∧ t.rxReady = false ∧ t.irq = false ∧ t.txData = 0 ∧
      t.latch = { op := 0, dest := 0xFFFF, arg := 0, cmd := 0, plen := 0, payload := Vector.replicate 12 0 } ∧
      (c.busRe = true → c.busWe = false →
        t.busRdata = some (if c.busAddr.toNat / 4 = 3 then 0x0000FFFF else 0)) ∧
      t.txStream = s.txStream ∧ t.rxStream = s.rxStream ++ c.rxArrive

/-- R27, R232: what every register of the map reads after reset: DEST is 0x0000FFFF, and every other offset reads 0. -/
def Obligations.ResetRegisterValues : Prop :=
  ∀ a : BitVec 8, readReg a State.reset = if a.toNat / 4 = 3 then 0x0000FFFF else 0

/-- R233, R63, R65, R69: in a cycle without reset in which the engine has no step (in IDLE, and in DISPATCH while the step is
put off), the host's access is all that acts. A write acts as `writeReg`, a read alone returns `readReg` of the state before
it, and without an access only the ports and the channel's arrivals change. The end of a cycle and the read data without a
read or with both strobes are the model's choice, log entries 1, 8 and 9. -/
def Obligations.IdleBlockWaits : Prop :=
  ∀ (s : State) (c : CycleIn) (rest : List EnvStep),
    s.phase = .idle ∨ (s.phase = .dispatch ∧ c.dispatchHold = true) → s.env = .cycle c :: rest → c.rstN = true →
    (∃ r, Spec.readData c r s ∧ step s = .next (Spec.cycleEnded (Spec.accessed c rest r s))) ∧
    (c.busWe = false → c.busRe = false →
      step s = .next (Spec.cycleEnded
        { s with pins := c, rxStream := s.rxStream ++ c.rxArrive, busRdata := none, env := rest }))

/-- R69, R207(b): in the cycle of a `finish` the host acts first. A read returns the state before it (a STATUS read sees
BUSY = 1), a STATUS write cannot clear the new DONE, and a GO write sets COLLIDE and starts nothing. -/
def Obligations.HostActsBeforeFinish : Prop :=
  ∀ (s t : State) (c : CycleIn) (rest : List EnvStep), Inv s → s.phase ≠ .idle → s.env = .cycle c :: rest →
    c.rstN = true → step s = .next t → t.phase = .idle →
    t.done = true ∧ t.busy = false ∧ t.code ≠ .none ∧
    (c.busRe = true → c.busWe = false → t.busRdata = some (readReg c.busAddr s)) ∧
    (c.busRe = true → c.busWe = false → c.busAddr.toNat / 4 = 1 → ∃ v, t.busRdata = some v ∧ v.getLsbD 0 = true) ∧
    (c.busWe = true → c.busAddr.toNat / 4 = 0 → t.collide = true ∧ t.lastOp = s.lastOp)

/-- R131: the untimed reading admits the timed one. In an open window, the event "the window expires" is the same as as many
quiet cycles as the timer still counts. -/
def Obligations.ExpiryIsQuietWindow : Prop :=
  ∀ (s : State) (rest : List EnvStep), s.inWindow = true → 0 < s.wtimer →
    runCycles s.wtimer { s with env := List.replicate s.wtimer (.cycle (quietCycle s.pins.chanOpen)) ++ rest } =
      step { s with env := .expire :: rest }

/-- R210: `irq` rises only by a `finish` with DONE_IE = 1 or by the host setting DONE_IE with DONE = 1, and it falls only by
reset or by a host write of GO, STATUS or IRQ_EN; after a `finish` it is DONE_IE. -/
def Obligations.IrqRisesAndFalls : Prop :=
  ∀ s t : State, Inv s → step s = .next t →
    (s.irq = false → t.irq = true → t.cfg.doneIe = true ∧
      ((s.phase ≠ .idle ∧ t.phase = .idle) ∨ (s.done = true ∧ t.done = true ∧ s.cfg.doneIe = false))) ∧
    (s.irq = true → t.irq = false → t.pins.rstN = false ∨ (t.pins.busWe = true ∧ t.pins.busAddr.toNat / 4 ≤ 2)) ∧
    (s.phase ≠ .idle → t.phase = .idle → t.pins.rstN = true → t.irq = t.cfg.doneIe)

/-- R42, R242: a running operation does not see the host's operand registers: with other contents of IRQ_EN, DEST, ARG, BCMD
and PAYLOAD it does the same in every cycle, and leaves those contents as they are. -/
def Obligations.OperandWritesDoNotReachRunningOp : Prop :=
  ∀ (i : Instr) (s t : State) (c : HostConfig), exec i s = .next t →
    exec i { s with cfg := c } = .next { t with cfg := c }

/-! ### Frames, and invariants of every step -/

/-- The frame of all twelve operations, in every cycle they go on or finish: what each phase may change, and nothing else
(R42, R43, R44, R45, R46, R116, R134). -/
def Obligations.OperationFrame : Prop :=
  ∀ (i : Instr) (s t : State), exec i s = .next t →
    (t.lastOp = s.lastOp ∧ t.collide = s.collide ∧ t.cfg = s.cfg ∧ t.latch = s.latch ∧ t.pins = s.pins ∧
      t.busRdata = s.busRdata ∧ t.txDataOff = s.txDataOff ∧ t.rxTimeout = s.rxTimeout ∧ t.env = s.env ∧
      t.cycle = s.cycle) ∧
    (s.phase ≠ .dispatch → t.txbuf = s.txbuf ∧ t.txv = s.txv) ∧
    (s.inTx = false → t.txStream = s.txStream) ∧
    (s.inWindow = false → t.rxStream = s.rxStream) ∧
    (s.inWindow = false → t.inWindow = false →
      t.rxbuf = s.rxbuf ∧ t.rxcount = s.rxcount ∧ t.discards = s.discards ∧ t.wtimer = s.wtimer) ∧
    (t.phase ≠ .idle → t.busy = s.busy ∧ t.done = s.done ∧ t.code = s.code) ∧
    (t.code ≠ .ok ∨ t.phase ≠ .idle → t.res = s.res) ∧
    (i ∉ [Instr.getSleep, .getMode, .getWorkingPeriod] → t.res.val = s.res.val) ∧
    (i ≠ .firmwareVersion → t.res.year = s.res.year ∧ t.res.month = s.res.month ∧ t.res.day = s.res.day ∧
      t.res.fwid = s.res.fwid) ∧
    (i ≠ .queryDust → t.res.pm25 = s.res.pm25 ∧ t.res.pm10 = s.res.pm10) ∧
    (∀ a : BitVec 8, a.toNat / 4 = 0 ∨ (2 ≤ a.toNat / 4 ∧ a.toNat / 4 ≤ 8) → readReg a t = readReg a s)

/-- R232: reset meets the invariant. -/
def Obligations.ResetMeetsInv : Prop :=
  ∀ (env : List EnvStep) (rx : List Byte), Inv { State.reset with env := env, rxStream := rx }

/-- Every step keeps the invariant, from every state that meets it: BUSY is the phase (R40), a running operation's flags and
results are 0 (R241), the counters and RXBUF agree (R36, R38), TXV says a well-formed frame (R118), a code is raised by its
own operations and records what it says (R200), there is no partial record (R45), and a cycle with `rst_n` = 0 has
left the block idle (R230). -/
def Obligations.StepKeepsInv : Prop :=
  ∀ s t : State, Inv s → step s = .next t → Inv t

/-- R202, R204: the block never stops: from every state that meets the invariant, a step answers a next state. -/
def Obligations.WellFormedStepNeverStops : Prop :=
  ∀ s : State, Inv s → SafeStep s

/-! ### The ports -/

/-- R23, R24, R40, R210, R230: the output ports in a cycle, and the bytes that it transfers. The levels are 0 while `rst_n` =
0; else `irq` is DONE and DONE_IE as the cycle finds them, a TX phase offers TXBUF[i], a SYNC or BODY phase is ready for a
byte, and IDLE and DISPATCH are neither. A byte goes out exactly when `tx_valid` and `tx_ready` are 1, and it is `tx_data`;
the channel's front byte is taken exactly when `rx_ready` is 1 and it is offered. The channel as a queue is log entry 7. -/
def Obligations.OutputPortsAndTransfers : Prop :=
  ∀ (s t : State) (c : CycleIn) (rest : List EnvStep), Inv s → s.env = .cycle c :: rest → step s = .next t →
    (c.rstN = false →
      (nextInputs s).txValid = false ∧ (nextInputs s).rxReady = false ∧ (nextInputs s).irq = false) ∧
    (c.rstN = true →
      (nextInputs s).irq = (s.done && s.cfg.doneIe) ∧
      (∀ i, s.phase = .tx i → (nextInputs s).txValid = true ∧ (nextInputs s).txData = s.txbuf[i] ∧
        (nextInputs s).rxReady = false) ∧
      (s.phase = .sync ∨ (∃ k, s.phase = .body k) → (nextInputs s).txValid = false ∧ (nextInputs s).rxReady = true) ∧
      (s.phase = .idle ∨ s.phase = .dispatch → (nextInputs s).txValid = false ∧ (nextInputs s).rxReady = false)) ∧
    t.txStream = s.txStream ++ (if (nextInputs s).txValid = true ∧ c.txReady = true then [(nextInputs s).txData] else []) ∧
    t.rxStream = (if (nextInputs s).rxReady = true ∧ c.rxOffer = true then (s.rxStream ++ c.rxArrive).tail
      else s.rxStream ++ c.rxArrive)
end

