-- ==== Sys2Proof/Laws/Decode.lean ====
section
/-! SUPPORT. Lemmas about the encodings: op codes, the bytes of a frame, sums, and the frames the build step makes. -/

namespace Sys2Proof

/-! ### Op codes -/

@[simp] theorem decodeOp_opCode (i : Instr) : decodeOp (opCode i) = .ok i := by cases i <;> rfl

/-- An op code selects one operation only. -/
theorem opCode_of_decodeOp {op : Byte} {i : Instr} (h : decodeOp op = .ok i) : opCode i = op := by
  unfold decodeOp at h
  split at h <;> cases h <;> rfl

/-! ### Sums and byte pairs -/

/-- sum8 as a number: the exact sum modulo 256 (R12). -/
theorem sum8_toNat (bs : List Byte) : (sum8 bs).toNat = (bs.map BitVec.toNat).sum % 256 := by simp [sum8]

theorem sum8_eq_iff (bs : List Byte) (b : Byte) : sum8 bs = b ↔ (bs.map BitVec.toNat).sum % 256 = b.toNat := by
  rw [← BitVec.toNat_inj, sum8_toNat]

theorem hiByte_toNat (d : Half) : (hiByte d).toNat = d.toNat / 256 := by
  simp [hiByte, Nat.shiftRight_eq_div_pow]; omega

theorem loByte_toNat (d : Half) : (loByte d).toNat = d.toNat % 256 := by simp [loByte]

theorem u16be_toNat (h l : Byte) : (u16be h l).toNat = h.toNat * 256 + l.toNat := by
  have := l.isLt
  rw [u16be, show (h ++ l : BitVec 16).toNat = _ from BitVec.toNat_append h l,
    ← Nat.shiftLeft_add_eq_or_of_lt this, Nat.shiftLeft_eq]

theorem u16le_toNat (l h : Byte) : (u16le l h).toNat = h.toNat * 256 + l.toNat := u16be_toNat h l

theorem u16be_hiByte_loByte (d : Half) : u16be (hiByte d) (loByte d) = d := by
  apply BitVec.eq_of_toNat_eq
  rw [u16be_toNat, hiByte_toNat, loByte_toNat]
  omega

theorem hiByte_u16be (h l : Byte) : hiByte (u16be h l) = h := by
  apply BitVec.eq_of_toNat_eq
  have := l.isLt
  rw [hiByte_toNat, u16be_toNat]
  omega

theorem loByte_u16be (h l : Byte) : loByte (u16be h l) = l := by
  apply BitVec.eq_of_toNat_eq
  have := l.isLt
  rw [loByte_toNat, u16be_toNat]
  omega

/-! ### Frames -/

theorem pad12_getElem (p : List Byte) (j : Nat) (hj : j < 12) : (pad12 p)[j] = p.getD j 0 := by simp [pad12]

theorem payload_toList (q : Vector Byte 12) : q.toList =
    [q[0], q[1], q[2], q[3], q[4], q[5], q[6], q[7], q[8], q[9], q[10], q[11]] := by
  apply List.ext_getElem
  · simp
  · intro n hn _
    simp only [Vector.length_toList] at hn
    interval_cases n <;> rfl

/-- The bytes of a command frame as a list. -/
theorem commandFrame_toList (t : CommandFrame) : t.toList =
    [t[0], t[1], t[2], t[3], t[4], t[5], t[6], t[7], t[8], t[9], t[10], t[11], t[12], t[13], t[14], t[15], t[16], t[17],
      t[18]] := by
  apply List.ext_getElem
  · simp
  · intro n hn _
    simp only [Vector.length_toList] at hn
    interval_cases n <;> rfl

/-- The bytes of a frame in order (R110). -/
theorem frame_toList (cmd : Byte) (p : List Byte) (dest : Half) :
    (frame cmd p dest).toList = [HEAD, CMD_ID, cmd] ++ (pad12 p).toList ++
      [hiByte dest, loByte dest, sum8 ([cmd] ++ (pad12 p).toList ++ [hiByte dest, loByte dest]), TAIL] := by
  simp only [frame, payload_toList (pad12 p)]
  rfl

/-- The payload bytes T[3..14] of a frame: the payload, then zero bytes (R110, R111). -/
theorem frame_payload (cmd : Byte) (p : List Byte) (dest : Half) (j : Nat) (hj : j < 12) :
    (frame cmd p dest)[3 + j] = p.getD j 0 := by
  have h : (frame cmd p dest).toList[3 + j]'(by simp; omega) = (pad12 p).toList[j]'(by simpa using hj) := by
    simp only [frame_toList]
    rw [List.getElem_append_left (by simp; omega), List.getElem_append_right (by simp)]
    simp
  rw [Vector.getElem_toList, Vector.getElem_toList] at h
  rw [h, pad12_getElem p j hj]

/-- The padded payload of 12 bytes or fewer sums as the payload does. -/
theorem pad12_sum (p : List Byte) (h : p.length ≤ 12) :
    ((pad12 p).toList.map BitVec.toNat).sum = (p.map BitVec.toNat).sum := by
  have key : (pad12 p).toList = p ++ List.replicate (12 - p.length) 0 := by
    apply List.ext_getElem
    · simp; omega
    · intro n h₁ h₂
      simp only [Vector.length_toList] at h₁
      rw [Vector.getElem_toList, pad12_getElem _ _ h₁]
      by_cases hn : n < p.length
      · simp [hn]
      · simp [List.getElem_append, hn]
  rw [key]
  simp

/-- The checksum a built frame carries is the one its bytes have (R114). -/
theorem commandChecksum_frame (cmd : Byte) (p : List Byte) (dest : Half) :
    commandChecksum (frame cmd p dest) = (frame cmd p dest)[17] := by
  have h17 : (frame cmd p dest)[17] = sum8 ([cmd] ++ (pad12 p).toList ++ [hiByte dest, loByte dest]) := rfl
  rw [h17, commandChecksum, frame_toList, payload_toList (pad12 p)]
  rfl

end Sys2Proof
end

