-- ==== Sys2Proof/Laws/State.lean ====
section
/-! SUPPORT. For each named update of State, what every field holds after it; each is true by unfolding the update. -/

namespace Sys2Proof.Machine

/-! ### `finish` (R205). -/

section
variable (c : ResultCode) (s : State)
@[simp] theorem finish_lastOp : (finish c s).lastOp = s.lastOp := rfl
@[simp] theorem finish_busy : (finish c s).busy = false := rfl
@[simp] theorem finish_done : (finish c s).done = true := rfl
@[simp] theorem finish_collide : (finish c s).collide = s.collide := rfl
@[simp] theorem finish_code : (finish c s).code = c := rfl
@[simp] theorem finish_cfg : (finish c s).cfg = s.cfg := rfl
@[simp] theorem finish_res : (finish c s).res = s.res := rfl
@[simp] theorem finish_txbuf : (finish c s).txbuf = s.txbuf := rfl
@[simp] theorem finish_txv : (finish c s).txv = s.txv := rfl
@[simp] theorem finish_rxbuf : (finish c s).rxbuf = s.rxbuf := rfl
@[simp] theorem finish_rxcount : (finish c s).rxcount = s.rxcount := rfl
@[simp] theorem finish_discards : (finish c s).discards = s.discards := rfl
@[simp] theorem finish_phase : (finish c s).phase = .idle := rfl
@[simp] theorem finish_latch : (finish c s).latch = s.latch := rfl
@[simp] theorem finish_wtimer : (finish c s).wtimer = s.wtimer := rfl
@[simp] theorem finish_txStream : (finish c s).txStream = s.txStream := rfl
@[simp] theorem finish_rxStream : (finish c s).rxStream = s.rxStream := rfl
@[simp] theorem finish_pins : (finish c s).pins = s.pins := rfl
@[simp] theorem finish_busRdata : (finish c s).busRdata = s.busRdata := rfl
@[simp] theorem finish_txDataOff : (finish c s).txDataOff = s.txDataOff := rfl
@[simp] theorem finish_rxTimeout : (finish c s).rxTimeout = s.rxTimeout := rfl
@[simp] theorem finish_env : (finish c s).env = s.env := rfl
@[simp] theorem finish_cycle : (finish c s).cycle = s.cycle := rfl
end

/-! ### Starting an operation (R30). -/

section
variable (op : Byte) (s : State)
@[simp] theorem startOperation_lastOp : (startOperation op s).lastOp = op := rfl
@[simp] theorem startOperation_busy : (startOperation op s).busy = true := rfl
@[simp] theorem startOperation_done : (startOperation op s).done = false := rfl
@[simp] theorem startOperation_collide : (startOperation op s).collide = s.collide := rfl
@[simp] theorem startOperation_code : (startOperation op s).code = .none := rfl
@[simp] theorem startOperation_cfg : (startOperation op s).cfg = s.cfg := rfl
@[simp] theorem startOperation_res : (startOperation op s).res = .zero := rfl
@[simp] theorem startOperation_txbuf : (startOperation op s).txbuf = s.txbuf := rfl
@[simp] theorem startOperation_txv : (startOperation op s).txv = s.txv := rfl
@[simp] theorem startOperation_rxbuf : (startOperation op s).rxbuf = s.rxbuf := rfl
@[simp] theorem startOperation_rxcount : (startOperation op s).rxcount = s.rxcount := rfl
@[simp] theorem startOperation_discards : (startOperation op s).discards = s.discards := rfl
@[simp] theorem startOperation_phase : (startOperation op s).phase = .dispatch := rfl
@[simp] theorem startOperation_latch : (startOperation op s).latch = captureOperands op s.cfg := rfl
@[simp] theorem startOperation_wtimer : (startOperation op s).wtimer = s.wtimer := rfl
@[simp] theorem startOperation_txStream : (startOperation op s).txStream = s.txStream := rfl
@[simp] theorem startOperation_rxStream : (startOperation op s).rxStream = s.rxStream := rfl
@[simp] theorem startOperation_pins : (startOperation op s).pins = s.pins := rfl
@[simp] theorem startOperation_busRdata : (startOperation op s).busRdata = s.busRdata := rfl
@[simp] theorem startOperation_txDataOff : (startOperation op s).txDataOff = s.txDataOff := rfl
@[simp] theorem startOperation_rxTimeout : (startOperation op s).rxTimeout = s.rxTimeout := rfl
@[simp] theorem startOperation_env : (startOperation op s).env = s.env := rfl
@[simp] theorem startOperation_cycle : (startOperation op s).cycle = s.cycle := rfl
end

/-! ### A GO write while busy (R30). -/

section
variable (s : State)
@[simp] theorem flagsOnCollide_lastOp : (flagsOnCollide s).lastOp = s.lastOp := rfl
@[simp] theorem flagsOnCollide_busy : (flagsOnCollide s).busy = s.busy := rfl
@[simp] theorem flagsOnCollide_done : (flagsOnCollide s).done = s.done := rfl
@[simp] theorem flagsOnCollide_collide : (flagsOnCollide s).collide = true := rfl
@[simp] theorem flagsOnCollide_code : (flagsOnCollide s).code = s.code := rfl
@[simp] theorem flagsOnCollide_cfg : (flagsOnCollide s).cfg = s.cfg := rfl
@[simp] theorem flagsOnCollide_res : (flagsOnCollide s).res = s.res := rfl
@[simp] theorem flagsOnCollide_txbuf : (flagsOnCollide s).txbuf = s.txbuf := rfl
@[simp] theorem flagsOnCollide_txv : (flagsOnCollide s).txv = s.txv := rfl
@[simp] theorem flagsOnCollide_rxbuf : (flagsOnCollide s).rxbuf = s.rxbuf := rfl
@[simp] theorem flagsOnCollide_rxcount : (flagsOnCollide s).rxcount = s.rxcount := rfl
@[simp] theorem flagsOnCollide_discards : (flagsOnCollide s).discards = s.discards := rfl
@[simp] theorem flagsOnCollide_phase : (flagsOnCollide s).phase = s.phase := rfl
@[simp] theorem flagsOnCollide_latch : (flagsOnCollide s).latch = s.latch := rfl
@[simp] theorem flagsOnCollide_wtimer : (flagsOnCollide s).wtimer = s.wtimer := rfl
@[simp] theorem flagsOnCollide_txStream : (flagsOnCollide s).txStream = s.txStream := rfl
@[simp] theorem flagsOnCollide_rxStream : (flagsOnCollide s).rxStream = s.rxStream := rfl
@[simp] theorem flagsOnCollide_pins : (flagsOnCollide s).pins = s.pins := rfl
@[simp] theorem flagsOnCollide_busRdata : (flagsOnCollide s).busRdata = s.busRdata := rfl
@[simp] theorem flagsOnCollide_txDataOff : (flagsOnCollide s).txDataOff = s.txDataOff := rfl
@[simp] theorem flagsOnCollide_rxTimeout : (flagsOnCollide s).rxTimeout = s.rxTimeout := rfl
@[simp] theorem flagsOnCollide_env : (flagsOnCollide s).env = s.env := rfl
@[simp] theorem flagsOnCollide_cycle : (flagsOnCollide s).cycle = s.cycle := rfl
end

/-! ### A STATUS write (R29). -/

section
variable (v : Word) (s : State)
@[simp] theorem acknowledge_lastOp : (acknowledge v s).lastOp = s.lastOp := rfl
@[simp] theorem acknowledge_busy : (acknowledge v s).busy = s.busy := rfl
@[simp] theorem acknowledge_done : (acknowledge v s).done = (s.done && !v.getLsbD 1) := rfl
@[simp] theorem acknowledge_collide : (acknowledge v s).collide = (s.collide && !v.getLsbD 2) := rfl
@[simp] theorem acknowledge_code : (acknowledge v s).code = s.code := rfl
@[simp] theorem acknowledge_cfg : (acknowledge v s).cfg = s.cfg := rfl
@[simp] theorem acknowledge_res : (acknowledge v s).res = s.res := rfl
@[simp] theorem acknowledge_txbuf : (acknowledge v s).txbuf = s.txbuf := rfl
@[simp] theorem acknowledge_txv : (acknowledge v s).txv = s.txv := rfl
@[simp] theorem acknowledge_rxbuf : (acknowledge v s).rxbuf = s.rxbuf := rfl
@[simp] theorem acknowledge_rxcount : (acknowledge v s).rxcount = s.rxcount := rfl
@[simp] theorem acknowledge_discards : (acknowledge v s).discards = s.discards := rfl
@[simp] theorem acknowledge_phase : (acknowledge v s).phase = s.phase := rfl
@[simp] theorem acknowledge_latch : (acknowledge v s).latch = s.latch := rfl
@[simp] theorem acknowledge_wtimer : (acknowledge v s).wtimer = s.wtimer := rfl
@[simp] theorem acknowledge_txStream : (acknowledge v s).txStream = s.txStream := rfl
@[simp] theorem acknowledge_rxStream : (acknowledge v s).rxStream = s.rxStream := rfl
@[simp] theorem acknowledge_pins : (acknowledge v s).pins = s.pins := rfl
@[simp] theorem acknowledge_busRdata : (acknowledge v s).busRdata = s.busRdata := rfl
@[simp] theorem acknowledge_txDataOff : (acknowledge v s).txDataOff = s.txDataOff := rfl
@[simp] theorem acknowledge_rxTimeout : (acknowledge v s).rxTimeout = s.rxTimeout := rfl
@[simp] theorem acknowledge_env : (acknowledge v s).env = s.env := rfl
@[simp] theorem acknowledge_cycle : (acknowledge v s).cycle = s.cycle := rfl
end

/-! ### The build step (R113, R160). -/

section
variable (cmd : Byte) (p : List Byte) (s : State)
@[simp] theorem loadFrame_lastOp : (loadFrame cmd p s).lastOp = s.lastOp := rfl
@[simp] theorem loadFrame_busy : (loadFrame cmd p s).busy = s.busy := rfl
@[simp] theorem loadFrame_done : (loadFrame cmd p s).done = s.done := rfl
@[simp] theorem loadFrame_collide : (loadFrame cmd p s).collide = s.collide := rfl
@[simp] theorem loadFrame_code : (loadFrame cmd p s).code = s.code := rfl
@[simp] theorem loadFrame_cfg : (loadFrame cmd p s).cfg = s.cfg := rfl
@[simp] theorem loadFrame_res : (loadFrame cmd p s).res = s.res := rfl
@[simp] theorem loadFrame_txbuf : (loadFrame cmd p s).txbuf = frame cmd p s.latch.dest := rfl
@[simp] theorem loadFrame_txv : (loadFrame cmd p s).txv = true := rfl
@[simp] theorem loadFrame_rxbuf : (loadFrame cmd p s).rxbuf = s.rxbuf := rfl
@[simp] theorem loadFrame_rxcount : (loadFrame cmd p s).rxcount = s.rxcount := rfl
@[simp] theorem loadFrame_discards : (loadFrame cmd p s).discards = s.discards := rfl
@[simp] theorem loadFrame_phase : (loadFrame cmd p s).phase = s.phase := rfl
@[simp] theorem loadFrame_latch : (loadFrame cmd p s).latch = s.latch := rfl
@[simp] theorem loadFrame_wtimer : (loadFrame cmd p s).wtimer = s.wtimer := rfl
@[simp] theorem loadFrame_txStream : (loadFrame cmd p s).txStream = s.txStream := rfl
@[simp] theorem loadFrame_rxStream : (loadFrame cmd p s).rxStream = s.rxStream := rfl
@[simp] theorem loadFrame_pins : (loadFrame cmd p s).pins = s.pins := rfl
@[simp] theorem loadFrame_busRdata : (loadFrame cmd p s).busRdata = s.busRdata := rfl
@[simp] theorem loadFrame_txDataOff : (loadFrame cmd p s).txDataOff = s.txDataOff := rfl
@[simp] theorem loadFrame_rxTimeout : (loadFrame cmd p s).rxTimeout = s.rxTimeout := rfl
@[simp] theorem loadFrame_env : (loadFrame cmd p s).env = s.env := rfl
@[simp] theorem loadFrame_cycle : (loadFrame cmd p s).cycle = s.cycle := rfl
end

/-! ### A byte is sent (R23). -/

section
variable (i : Fin 19) (s : State)
@[simp] theorem sendByte_lastOp : (sendByte i s).lastOp = s.lastOp := rfl
@[simp] theorem sendByte_busy : (sendByte i s).busy = s.busy := rfl
@[simp] theorem sendByte_done : (sendByte i s).done = s.done := rfl
@[simp] theorem sendByte_collide : (sendByte i s).collide = s.collide := rfl
@[simp] theorem sendByte_code : (sendByte i s).code = s.code := rfl
@[simp] theorem sendByte_cfg : (sendByte i s).cfg = s.cfg := rfl
@[simp] theorem sendByte_res : (sendByte i s).res = s.res := rfl
@[simp] theorem sendByte_txbuf : (sendByte i s).txbuf = s.txbuf := rfl
@[simp] theorem sendByte_txv : (sendByte i s).txv = s.txv := rfl
@[simp] theorem sendByte_rxbuf : (sendByte i s).rxbuf = s.rxbuf := rfl
@[simp] theorem sendByte_rxcount : (sendByte i s).rxcount = s.rxcount := rfl
@[simp] theorem sendByte_discards : (sendByte i s).discards = s.discards := rfl
@[simp] theorem sendByte_phase : (sendByte i s).phase = s.phase := rfl
@[simp] theorem sendByte_latch : (sendByte i s).latch = s.latch := rfl
@[simp] theorem sendByte_wtimer : (sendByte i s).wtimer = s.wtimer := rfl
@[simp] theorem sendByte_txStream : (sendByte i s).txStream = s.txStream ++ [s.txbuf[i]] := rfl
@[simp] theorem sendByte_rxStream : (sendByte i s).rxStream = s.rxStream := rfl
@[simp] theorem sendByte_pins : (sendByte i s).pins = s.pins := rfl
@[simp] theorem sendByte_busRdata : (sendByte i s).busRdata = s.busRdata := rfl
@[simp] theorem sendByte_txDataOff : (sendByte i s).txDataOff = s.txDataOff := rfl
@[simp] theorem sendByte_rxTimeout : (sendByte i s).rxTimeout = s.rxTimeout := rfl
@[simp] theorem sendByte_env : (sendByte i s).env = s.env := rfl
@[simp] theorem sendByte_cycle : (sendByte i s).cycle = s.cycle := rfl
end

/-! ### A byte is taken (R24). -/

section
variable (s : State)
@[simp] theorem takeByte_lastOp : (takeByte s).lastOp = s.lastOp := rfl
@[simp] theorem takeByte_busy : (takeByte s).busy = s.busy := rfl
@[simp] theorem takeByte_done : (takeByte s).done = s.done := rfl
@[simp] theorem takeByte_collide : (takeByte s).collide = s.collide := rfl
@[simp] theorem takeByte_code : (takeByte s).code = s.code := rfl
@[simp] theorem takeByte_cfg : (takeByte s).cfg = s.cfg := rfl
@[simp] theorem takeByte_res : (takeByte s).res = s.res := rfl
@[simp] theorem takeByte_txbuf : (takeByte s).txbuf = s.txbuf := rfl
@[simp] theorem takeByte_txv : (takeByte s).txv = s.txv := rfl
@[simp] theorem takeByte_rxbuf : (takeByte s).rxbuf = s.rxbuf := rfl
@[simp] theorem takeByte_rxcount : (takeByte s).rxcount = s.rxcount := rfl
@[simp] theorem takeByte_discards : (takeByte s).discards = s.discards := rfl
@[simp] theorem takeByte_phase : (takeByte s).phase = s.phase := rfl
@[simp] theorem takeByte_latch : (takeByte s).latch = s.latch := rfl
@[simp] theorem takeByte_wtimer : (takeByte s).wtimer = s.wtimer := rfl
@[simp] theorem takeByte_txStream : (takeByte s).txStream = s.txStream := rfl
@[simp] theorem takeByte_rxStream : (takeByte s).rxStream = s.rxStream.tail := rfl
@[simp] theorem takeByte_pins : (takeByte s).pins = s.pins := rfl
@[simp] theorem takeByte_busRdata : (takeByte s).busRdata = s.busRdata := rfl
@[simp] theorem takeByte_txDataOff : (takeByte s).txDataOff = s.txDataOff := rfl
@[simp] theorem takeByte_rxTimeout : (takeByte s).rxTimeout = s.rxTimeout := rfl
@[simp] theorem takeByte_env : (takeByte s).env = s.env := rfl
@[simp] theorem takeByte_cycle : (takeByte s).cycle = s.cycle := rfl
end

/-! ### A sync window opens (R131). -/

section
variable (s : State)
@[simp] theorem openSync_lastOp : (openSync s).lastOp = s.lastOp := rfl
@[simp] theorem openSync_busy : (openSync s).busy = s.busy := rfl
@[simp] theorem openSync_done : (openSync s).done = s.done := rfl
@[simp] theorem openSync_collide : (openSync s).collide = s.collide := rfl
@[simp] theorem openSync_code : (openSync s).code = s.code := rfl
@[simp] theorem openSync_cfg : (openSync s).cfg = s.cfg := rfl
@[simp] theorem openSync_res : (openSync s).res = s.res := rfl
@[simp] theorem openSync_txbuf : (openSync s).txbuf = s.txbuf := rfl
@[simp] theorem openSync_txv : (openSync s).txv = s.txv := rfl
@[simp] theorem openSync_rxbuf : (openSync s).rxbuf = s.rxbuf := rfl
@[simp] theorem openSync_rxcount : (openSync s).rxcount = s.rxcount := rfl
@[simp] theorem openSync_discards : (openSync s).discards = s.discards := rfl
@[simp] theorem openSync_phase : (openSync s).phase = .sync := rfl
@[simp] theorem openSync_latch : (openSync s).latch = s.latch := rfl
@[simp] theorem openSync_wtimer : (openSync s).wtimer = s.rxTimeout := rfl
@[simp] theorem openSync_txStream : (openSync s).txStream = s.txStream := rfl
@[simp] theorem openSync_rxStream : (openSync s).rxStream = s.rxStream := rfl
@[simp] theorem openSync_pins : (openSync s).pins = s.pins := rfl
@[simp] theorem openSync_busRdata : (openSync s).busRdata = s.busRdata := rfl
@[simp] theorem openSync_txDataOff : (openSync s).txDataOff = s.txDataOff := rfl
@[simp] theorem openSync_rxTimeout : (openSync s).rxTimeout = s.rxTimeout := rfl
@[simp] theorem openSync_env : (openSync s).env = s.env := rfl
@[simp] theorem openSync_cycle : (openSync s).cycle = s.cycle := rfl
end

/-! ### The body window opens (R131). -/

section
variable (s : State)
@[simp] theorem openBody_lastOp : (openBody s).lastOp = s.lastOp := rfl
@[simp] theorem openBody_busy : (openBody s).busy = s.busy := rfl
@[simp] theorem openBody_done : (openBody s).done = s.done := rfl
@[simp] theorem openBody_collide : (openBody s).collide = s.collide := rfl
@[simp] theorem openBody_code : (openBody s).code = s.code := rfl
@[simp] theorem openBody_cfg : (openBody s).cfg = s.cfg := rfl
@[simp] theorem openBody_res : (openBody s).res = s.res := rfl
@[simp] theorem openBody_txbuf : (openBody s).txbuf = s.txbuf := rfl
@[simp] theorem openBody_txv : (openBody s).txv = s.txv := rfl
@[simp] theorem openBody_rxbuf : (openBody s).rxbuf = s.rxbuf := rfl
@[simp] theorem openBody_rxcount : (openBody s).rxcount = s.rxcount := rfl
@[simp] theorem openBody_discards : (openBody s).discards = s.discards := rfl
@[simp] theorem openBody_phase : (openBody s).phase = .body 0 := rfl
@[simp] theorem openBody_latch : (openBody s).latch = s.latch := rfl
@[simp] theorem openBody_wtimer : (openBody s).wtimer = s.rxTimeout := rfl
@[simp] theorem openBody_txStream : (openBody s).txStream = s.txStream := rfl
@[simp] theorem openBody_rxStream : (openBody s).rxStream = s.rxStream := rfl
@[simp] theorem openBody_pins : (openBody s).pins = s.pins := rfl
@[simp] theorem openBody_busRdata : (openBody s).busRdata = s.busRdata := rfl
@[simp] theorem openBody_txDataOff : (openBody s).txDataOff = s.txDataOff := rfl
@[simp] theorem openBody_rxTimeout : (openBody s).rxTimeout = s.rxTimeout := rfl
@[simp] theorem openBody_env : (openBody s).env = s.env := rfl
@[simp] theorem openBody_cycle : (openBody s).cycle = s.cycle := rfl
end

/-! ### A receive phase starts (R130). -/

section
variable (s : State)
@[simp] theorem beginReceive_lastOp : (beginReceive s).lastOp = s.lastOp := rfl
@[simp] theorem beginReceive_busy : (beginReceive s).busy = s.busy := rfl
@[simp] theorem beginReceive_done : (beginReceive s).done = s.done := rfl
@[simp] theorem beginReceive_collide : (beginReceive s).collide = s.collide := rfl
@[simp] theorem beginReceive_code : (beginReceive s).code = s.code := rfl
@[simp] theorem beginReceive_cfg : (beginReceive s).cfg = s.cfg := rfl
@[simp] theorem beginReceive_res : (beginReceive s).res = s.res := rfl
@[simp] theorem beginReceive_txbuf : (beginReceive s).txbuf = s.txbuf := rfl
@[simp] theorem beginReceive_txv : (beginReceive s).txv = s.txv := rfl
@[simp] theorem beginReceive_rxbuf : (beginReceive s).rxbuf = Vector.replicate 10 0 := rfl
@[simp] theorem beginReceive_rxcount : (beginReceive s).rxcount = 0 := rfl
@[simp] theorem beginReceive_discards : (beginReceive s).discards = 0 := rfl
@[simp] theorem beginReceive_phase : (beginReceive s).phase = .sync := rfl
@[simp] theorem beginReceive_latch : (beginReceive s).latch = s.latch := rfl
@[simp] theorem beginReceive_wtimer : (beginReceive s).wtimer = s.rxTimeout := rfl
@[simp] theorem beginReceive_txStream : (beginReceive s).txStream = s.txStream := rfl
@[simp] theorem beginReceive_rxStream : (beginReceive s).rxStream = s.rxStream := rfl
@[simp] theorem beginReceive_pins : (beginReceive s).pins = s.pins := rfl
@[simp] theorem beginReceive_busRdata : (beginReceive s).busRdata = s.busRdata := rfl
@[simp] theorem beginReceive_txDataOff : (beginReceive s).txDataOff = s.txDataOff := rfl
@[simp] theorem beginReceive_rxTimeout : (beginReceive s).rxTimeout = s.rxTimeout := rfl
@[simp] theorem beginReceive_env : (beginReceive s).env = s.env := rfl
@[simp] theorem beginReceive_cycle : (beginReceive s).cycle = s.cycle := rfl
end

/-! ### The timer counts down (R213). -/

section
variable (s : State)
@[simp] theorem tickWindow_lastOp : (tickWindow s).lastOp = s.lastOp := rfl
@[simp] theorem tickWindow_busy : (tickWindow s).busy = s.busy := rfl
@[simp] theorem tickWindow_done : (tickWindow s).done = s.done := rfl
@[simp] theorem tickWindow_collide : (tickWindow s).collide = s.collide := rfl
@[simp] theorem tickWindow_code : (tickWindow s).code = s.code := rfl
@[simp] theorem tickWindow_cfg : (tickWindow s).cfg = s.cfg := rfl
@[simp] theorem tickWindow_res : (tickWindow s).res = s.res := rfl
@[simp] theorem tickWindow_txbuf : (tickWindow s).txbuf = s.txbuf := rfl
@[simp] theorem tickWindow_txv : (tickWindow s).txv = s.txv := rfl
@[simp] theorem tickWindow_rxbuf : (tickWindow s).rxbuf = s.rxbuf := rfl
@[simp] theorem tickWindow_rxcount : (tickWindow s).rxcount = s.rxcount := rfl
@[simp] theorem tickWindow_discards : (tickWindow s).discards = s.discards := rfl
@[simp] theorem tickWindow_phase : (tickWindow s).phase = s.phase := rfl
@[simp] theorem tickWindow_latch : (tickWindow s).latch = s.latch := rfl
@[simp] theorem tickWindow_wtimer : (tickWindow s).wtimer = s.wtimer - 1 := rfl
@[simp] theorem tickWindow_txStream : (tickWindow s).txStream = s.txStream := rfl
@[simp] theorem tickWindow_rxStream : (tickWindow s).rxStream = s.rxStream := rfl
@[simp] theorem tickWindow_pins : (tickWindow s).pins = s.pins := rfl
@[simp] theorem tickWindow_busRdata : (tickWindow s).busRdata = s.busRdata := rfl
@[simp] theorem tickWindow_txDataOff : (tickWindow s).txDataOff = s.txDataOff := rfl
@[simp] theorem tickWindow_rxTimeout : (tickWindow s).rxTimeout = s.rxTimeout := rfl
@[simp] theorem tickWindow_env : (tickWindow s).env = s.env := rfl
@[simp] theorem tickWindow_cycle : (tickWindow s).cycle = s.cycle := rfl
end

/-! ### A body byte is captured (R134). -/

section
variable (k : Fin 9) (b : Byte) (s : State)
@[simp] theorem storeBodyByte_lastOp : (storeBodyByte k b s).lastOp = s.lastOp := rfl
@[simp] theorem storeBodyByte_busy : (storeBodyByte k b s).busy = s.busy := rfl
@[simp] theorem storeBodyByte_done : (storeBodyByte k b s).done = s.done := rfl
@[simp] theorem storeBodyByte_collide : (storeBodyByte k b s).collide = s.collide := rfl
@[simp] theorem storeBodyByte_code : (storeBodyByte k b s).code = s.code := rfl
@[simp] theorem storeBodyByte_cfg : (storeBodyByte k b s).cfg = s.cfg := rfl
@[simp] theorem storeBodyByte_res : (storeBodyByte k b s).res = s.res := rfl
@[simp] theorem storeBodyByte_txbuf : (storeBodyByte k b s).txbuf = s.txbuf := rfl
@[simp] theorem storeBodyByte_txv : (storeBodyByte k b s).txv = s.txv := rfl
@[simp] theorem storeBodyByte_rxbuf : (storeBodyByte k b s).rxbuf = s.rxbuf.set (k.val + 1) b := rfl
@[simp] theorem storeBodyByte_rxcount : (storeBodyByte k b s).rxcount = BitVec.ofNat 4 (k.val + 2) := rfl
@[simp] theorem storeBodyByte_discards : (storeBodyByte k b s).discards = s.discards := rfl
@[simp] theorem storeBodyByte_phase : (storeBodyByte k b s).phase = s.phase := rfl
@[simp] theorem storeBodyByte_latch : (storeBodyByte k b s).latch = s.latch := rfl
@[simp] theorem storeBodyByte_wtimer : (storeBodyByte k b s).wtimer = s.wtimer := rfl
@[simp] theorem storeBodyByte_txStream : (storeBodyByte k b s).txStream = s.txStream := rfl
@[simp] theorem storeBodyByte_rxStream : (storeBodyByte k b s).rxStream = s.rxStream := rfl
@[simp] theorem storeBodyByte_pins : (storeBodyByte k b s).pins = s.pins := rfl
@[simp] theorem storeBodyByte_busRdata : (storeBodyByte k b s).busRdata = s.busRdata := rfl
@[simp] theorem storeBodyByte_txDataOff : (storeBodyByte k b s).txDataOff = s.txDataOff := rfl
@[simp] theorem storeBodyByte_rxTimeout : (storeBodyByte k b s).rxTimeout = s.rxTimeout := rfl
@[simp] theorem storeBodyByte_env : (storeBodyByte k b s).env = s.env := rfl
@[simp] theorem storeBodyByte_cycle : (storeBodyByte k b s).cycle = s.cycle := rfl
end

/-! ### The inputs reach the ports. -/

section
variable (c : CycleIn) (s : State)
@[simp] theorem takeInputs_lastOp : (takeInputs c s).lastOp = s.lastOp := rfl
@[simp] theorem takeInputs_busy : (takeInputs c s).busy = s.busy := rfl
@[simp] theorem takeInputs_done : (takeInputs c s).done = s.done := rfl
@[simp] theorem takeInputs_collide : (takeInputs c s).collide = s.collide := rfl
@[simp] theorem takeInputs_code : (takeInputs c s).code = s.code := rfl
@[simp] theorem takeInputs_cfg : (takeInputs c s).cfg = s.cfg := rfl
@[simp] theorem takeInputs_res : (takeInputs c s).res = s.res := rfl
@[simp] theorem takeInputs_txbuf : (takeInputs c s).txbuf = s.txbuf := rfl
@[simp] theorem takeInputs_txv : (takeInputs c s).txv = s.txv := rfl
@[simp] theorem takeInputs_rxbuf : (takeInputs c s).rxbuf = s.rxbuf := rfl
@[simp] theorem takeInputs_rxcount : (takeInputs c s).rxcount = s.rxcount := rfl
@[simp] theorem takeInputs_discards : (takeInputs c s).discards = s.discards := rfl
@[simp] theorem takeInputs_phase : (takeInputs c s).phase = s.phase := rfl
@[simp] theorem takeInputs_latch : (takeInputs c s).latch = s.latch := rfl
@[simp] theorem takeInputs_wtimer : (takeInputs c s).wtimer = s.wtimer := rfl
@[simp] theorem takeInputs_txStream : (takeInputs c s).txStream = s.txStream := rfl
@[simp] theorem takeInputs_rxStream : (takeInputs c s).rxStream = s.rxStream ++ c.rxArrive := rfl
@[simp] theorem takeInputs_pins : (takeInputs c s).pins = c := rfl
@[simp] theorem takeInputs_busRdata : (takeInputs c s).busRdata = none := rfl
@[simp] theorem takeInputs_txDataOff : (takeInputs c s).txDataOff = s.txDataOff := rfl
@[simp] theorem takeInputs_rxTimeout : (takeInputs c s).rxTimeout = s.rxTimeout := rfl
@[simp] theorem takeInputs_env : (takeInputs c s).env = s.env := rfl
@[simp] theorem takeInputs_cycle : (takeInputs c s).cycle = s.cycle := rfl
end

/-! ### The cycle ends. -/

section
variable (s : State)
@[simp] theorem endCycle_lastOp : (endCycle s).lastOp = s.lastOp := rfl
@[simp] theorem endCycle_busy : (endCycle s).busy = s.busy := rfl
@[simp] theorem endCycle_done : (endCycle s).done = s.done := rfl
@[simp] theorem endCycle_collide : (endCycle s).collide = s.collide := rfl
@[simp] theorem endCycle_code : (endCycle s).code = s.code := rfl
@[simp] theorem endCycle_cfg : (endCycle s).cfg = s.cfg := rfl
@[simp] theorem endCycle_res : (endCycle s).res = s.res := rfl
@[simp] theorem endCycle_txbuf : (endCycle s).txbuf = s.txbuf := rfl
@[simp] theorem endCycle_txv : (endCycle s).txv = s.txv := rfl
@[simp] theorem endCycle_rxbuf : (endCycle s).rxbuf = s.rxbuf := rfl
@[simp] theorem endCycle_rxcount : (endCycle s).rxcount = s.rxcount := rfl
@[simp] theorem endCycle_discards : (endCycle s).discards = s.discards := rfl
@[simp] theorem endCycle_phase : (endCycle s).phase = s.phase := rfl
@[simp] theorem endCycle_latch : (endCycle s).latch = s.latch := rfl
@[simp] theorem endCycle_wtimer : (endCycle s).wtimer = s.wtimer := rfl
@[simp] theorem endCycle_txStream : (endCycle s).txStream = s.txStream := rfl
@[simp] theorem endCycle_rxStream : (endCycle s).rxStream = s.rxStream := rfl
@[simp] theorem endCycle_pins : (endCycle s).pins = s.pins := rfl
@[simp] theorem endCycle_busRdata : (endCycle s).busRdata = s.busRdata := rfl
@[simp] theorem endCycle_txDataOff : (endCycle s).txDataOff = Config.txDataOff s.cycle := rfl
@[simp] theorem endCycle_rxTimeout : (endCycle s).rxTimeout = s.rxTimeout := rfl
@[simp] theorem endCycle_env : (endCycle s).env = s.env := rfl
@[simp] theorem endCycle_cycle : (endCycle s).cycle = s.cycle + 1 := rfl
end

end Sys2Proof.Machine
end

