-- ==== Sys2Proof/Laws/Ops.lean ====
section
/-! SUPPORT. What each shared operation and each operation's cycle can do, once: equations by phase, and the inversion of exec
and step ("if it answers a next state, then one of these"). -/

namespace Sys2Proof.Machine

/-! ### The three parts of an operation -/

/-- The DISPATCH step of an operation. -/
def startOf : Instr → State → State
  | .build, s => if plenTooLong s.latch then finish .precondition { s with txv := false }
      else finish .ok (loadFrame s.latch.cmd (buildPayload s.latch) s)
  | .send, s => if s.txv then startTransmit s else finish .precondition s
  | .receive, s => beginReceive s
  | .getSleep, s => transact 6 [0, 0] s
  | .setSleep, s => transact 6 [1, sleepWant s.latch] s
  | .getMode, s => transact 2 [0, 0] s
  | .setMode, s => transact 2 [1, modeArg s.latch] s
  | .firmwareVersion, s => transact 7 [] s
  | .queryDust, s => transact 4 [] s
  | .setId, s =>
    transact 5 [0, 0, 0, 0, 0, 0, 0, 0, 0, 0, hiByte (newIdArg s.latch), loByte (newIdArg s.latch)] s
  | .setWorkingPeriod, s => startSetWorkingPeriod s
  | .getWorkingPeriod, s => transact 8 [0] s

/-- What follows an operation's write phase, in the TX(18) step. -/
def afterWrite (i : Instr) : State → State := if isCommand i then beginReceive else finish .ok

/-- What an operation makes of a valid response. -/
def onValidOf : Instr → State → State
  | .build | .send | .receive => finish .ok
  | .getSleep => decodeGetSleep
  | .setSleep => decodeSetSleep
  | .getMode => decodeGetMode
  | .setMode => decodeSetMode
  | .firmwareVersion => decodeFirmwareVersion
  | .queryDust => decodeQueryDust
  | .setId => decodeSetId
  | .setWorkingPeriod => decodeSetWorkingPeriod
  | .getWorkingPeriod => decodeGetWorkingPeriod

/-! ### exec by phase -/

section
variable {i : Instr} {s t : State}

theorem exec_dispatch (hp : s.phase = .dispatch) : exec i s = .next (startOf i s) := by
  cases i <;>
    simp only [exec, execBuild, execSend, execReceive, execGetSleep, execSetSleep, execGetMode, execSetMode,
      execFirmwareVersion, execQueryDust, execSetId, execSetWorkingPeriod, execGetWorkingPeriod, commandCycle, startOf, hp]

theorem exec_tx {k : Fin 19} (ht : transmits i = true) (hp : s.phase = .tx k) :
    exec i s = .next (transmitCycle (afterWrite i) k s) := by
  cases i <;> first | exact absurd ht (by decide) | skip
  all_goals
    simp [exec, execSend, execGetSleep, execSetSleep, execGetMode, execSetMode, execFirmwareVersion, execQueryDust,
      execSetId, execSetWorkingPeriod, execGetWorkingPeriod, commandCycle, afterWrite, isCommand, hp]

theorem exec_sync (hr : receives i = true) (hp : s.phase = .sync) : exec i s = .next (syncCycle s) := by
  cases i <;> first | exact absurd hr (by decide) | skip
  all_goals
    simp [exec, execReceive, execGetSleep, execSetSleep, execGetMode, execSetMode, execFirmwareVersion, execQueryDust,
      execSetId, execSetWorkingPeriod, execGetWorkingPeriod, commandCycle, hp]

theorem exec_body {k : Fin 9} (hr : receives i = true) (hp : s.phase = .body k) :
    exec i s = .next (bodyCycle (onValidOf i) k s) := by
  cases i <;> first | exact absurd hr (by decide) | skip
  all_goals
    simp [exec, execReceive, execGetSleep, execSetSleep, execGetMode, execSetMode, execFirmwareVersion, execQueryDust,
      execSetId, execSetWorkingPeriod, execGetWorkingPeriod, commandCycle, onValidOf, hp]

/-- Everything an operation can do in a cycle that answers a next state. -/
theorem exec_next_cases (h : exec i s = .next t) :
    (s.phase = .dispatch ∧ t = startOf i s) ∨
    (∃ k, s.phase = .tx k ∧ transmits i = true ∧ t = transmitCycle (afterWrite i) k s) ∨
    (s.phase = .sync ∧ receives i = true ∧ t = syncCycle s) ∨
    (∃ k, s.phase = .body k ∧ receives i = true ∧ t = bodyCycle (onValidOf i) k s) := by
  cases hp : s.phase with
  | idle =>
    cases i <;>
      simp [exec, execBuild, execSend, execReceive, execGetSleep, execSetSleep, execGetMode, execSetMode,
        execFirmwareVersion, execQueryDust, execSetId, execSetWorkingPeriod, execGetWorkingPeriod, commandCycle, hp] at h
  | dispatch =>
    rw [exec_dispatch hp] at h
    exact .inl ⟨rfl, by simpa using h.symm⟩
  | tx k =>
    by_cases ht : transmits i = true
    · rw [exec_tx ht hp] at h
      exact .inr (.inl ⟨k, rfl, ht, by simpa using h.symm⟩)
    · cases i <;> first | exact absurd rfl ht | simp [exec, execBuild, execReceive, hp] at h
  | sync =>
    by_cases hr : receives i = true
    · rw [exec_sync hr hp] at h
      exact .inr (.inr (.inl ⟨rfl, hr, by simpa using h.symm⟩))
    · cases i <;> first | exact absurd rfl hr | simp [exec, execBuild, execSend, hp] at h
  | body k =>
    by_cases hr : receives i = true
    · rw [exec_body hr hp] at h
      exact .inr (.inr (.inr ⟨k, rfl, hr, by simpa using h.symm⟩))
    · cases i <;> first | exact absurd rfl hr | simp [exec, execBuild, execSend, hp] at h

end

/-! ### The shared operations -/

section
variable {s : State}

theorem transmitCycle_stall {after : State → State} {k : Fin 19} (h : s.pins.txReady = false) :
    transmitCycle after k s = s := by simp [transmitCycle, h]

theorem transmitCycle_advance {after : State → State} {k : Nat} (hk : k + 1 < 19) (h : s.pins.txReady = true) :
    transmitCycle after ⟨k, by omega⟩ s = { sendByte ⟨k, by omega⟩ s with phase := .tx ⟨k + 1, hk⟩ } := by
  simp [transmitCycle, h, hk]

theorem transmitCycle_last {after : State → State} (h : s.pins.txReady = true) :
    transmitCycle after 18 s = after (sendByte 18 s) := by simp [transmitCycle, h]

theorem rxOffered_some {b : Byte} {rest : List Byte} (ho : s.pins.rxOffer = true) (hs : s.rxStream = b :: rest) :
    s.rxOffered = some b := by simp [State.rxOffered, ho, hs]

theorem rxOffered_none (h : s.pins.rxOffer = false ∨ s.rxStream = []) : s.rxOffered = none := by
  rcases h with h | h <;> simp [State.rxOffered, h]

theorem syncCycle_byte {b : Byte} {rest : List Byte} (ho : s.pins.rxOffer = true) (hs : s.rxStream = b :: rest) :
    syncCycle s = syncByte b { s with rxStream := rest, wtimer := s.wtimer - 1 } := by
  simp [syncCycle, rxOffered_some ho hs, takeByte, tickWindow, hs]

theorem bodyCycle_byte {onValid : State → State} {k : Nat} (hk : k + 1 < 9) {b : Byte} {rest : List Byte}
    (ho : s.pins.rxOffer = true) (hs : s.rxStream = b :: rest) :
    bodyCycle onValid ⟨k, by omega⟩ s =
      { storeBodyByte ⟨k, by omega⟩ b { s with rxStream := rest, wtimer := s.wtimer - 1 } with
        phase := .body ⟨k + 1, hk⟩ } := by
  simp [bodyCycle, rxOffered_some ho hs, takeByte, tickWindow, hs, hk]

theorem bodyCycle_last {onValid : State → State} {b : Byte} {rest : List Byte}
    (ho : s.pins.rxOffer = true) (hs : s.rxStream = b :: rest) :
    bodyCycle onValid 8 s = validate onValid
      { s with rxStream := rest, wtimer := s.wtimer - 1, rxbuf := s.rxbuf.set 9 b, rxcount := 10 } := by
  simp [bodyCycle, rxOffered_some ho hs, takeByte, tickWindow, storeBodyByte, hs]

theorem validate_valid {onValid : State → State} (h : responseValid s.rxbuf = true) :
    validate onValid s = onValid s := by
  simp only [responseValid, Bool.and_eq_true] at h
  simp [validate, h]

/-- The step of the ninth body byte of a valid frame is the operation's decode of it (R137). -/
theorem exec_lastByte_valid {i : Instr} {b : Byte} {rest : List Byte} (hr : receives i = true) (hp : s.phase = .body 8)
    (ho : s.pins.rxOffer = true) (hs : s.rxStream = b :: rest) (hv : responseValid (s.rxbuf.set 9 b) = true) :
    exec i s = .next (onValidOf i
      { s with rxStream := rest, wtimer := s.wtimer - 1, rxbuf := s.rxbuf.set 9 b, rxcount := 10 }) := by
  rw [exec_body hr hp, bodyCycle_last ho hs, validate_valid (by exact hv)]

/-- A command whose precondition holds transacts its own wire command (R86, R160). -/
theorem startOf_request {i : Instr} {c : WireCommand} (h : requestOf i s.latch = some c) :
    startOf i s = transact (commandCode c) (commandPayload c) s := by
  cases i <;> simp only [requestOf, reduceCtorEq, Option.some.injEq] at h
  case setWorkingPeriod =>
    split at h
    · next hle =>
      cases h
      have hle' : ¬ (s.latch.arg.toNat > PERIOD_MAX) := by omega
      simp [startOf, startSetWorkingPeriod, periodTooLong, hle', commandCode, commandPayload]
    · cases h
  all_goals subst h; rfl

/-- A decode of a valid response ends the operation, and changes only the flags, the code, the phase and the results. -/
theorem onValidOf_finishes (i : Instr) (s : State) :
    ∃ (c : ResultCode) (r : Results), onValidOf i s = finish c { s with res := r } ∧ (c ≠ .ok → r = s.res) := by
  cases i <;>
    simp only [onValidOf, decodeGetSleep, decodeSetSleep, decodeGetMode, decodeSetMode, decodeFirmwareVersion,
      decodeQueryDust, decodeSetId, decodeSetWorkingPeriod, decodeGetWorkingPeriod, finishEcho] <;>
    (repeat' split) <;>
    exact ⟨_, _, rfl, by simp⟩

end

/-! ### One cycle -/

section
variable {s t : State}

theorem State.inTx_iff : s.inTx = true ↔ ∃ k, s.phase = .tx k := by
  cases hp : s.phase <;> simp [State.inTx, hp]

theorem State.inWindow_iff : s.inWindow = true ↔ s.phase = .sync ∨ ∃ k, s.phase = .body k := by
  cases hp : s.phase <;> simp [State.inWindow, hp]

/-- `nextInputs` changes only the ports, the streams' arrivals, the list of inputs, the timer and the cycle number. -/
theorem nextInputs_eq (s : State) :
    ∃ p rx e w n, nextInputs s =
        { s with pins := p, rxStream := s.rxStream ++ rx, busRdata := none, env := e, wtimer := w, cycle := n } ∧
      p.rxArrive = rx ∧ (w = s.wtimer ∨ (w = 1 ∧ s.inWindow = true)) := by
  unfold nextInputs
  split
  · exact ⟨_, _, _, _, _, rfl, rfl, .inl rfl⟩
  · exact ⟨_, _, _, _, _, rfl, rfl, .inl rfl⟩
  · unfold skipWindow
    split
    · exact ⟨_, _, _, 1, _, rfl, rfl, .inr ⟨rfl, by assumption⟩⟩
    · exact ⟨_, _, _, _, _, rfl, rfl, .inl rfl⟩

/-- The inputs of a listed cycle. -/
theorem nextInputs_cycle {c : CycleIn} {rest : List EnvStep} (he : s.env = .cycle c :: rest) :
    nextInputs s = { s with pins := c, rxStream := s.rxStream ++ c.rxArrive, busRdata := none, env := rest } := by
  simp [nextInputs, he, takeInputs]

/-- Everything a cycle can do. -/
theorem step_next_cases (h : step s = .next t) :
    ((nextInputs s).pins.rstN = false ∧ t = resetCycle (nextInputs s)) ∨
    ((nextInputs s).pins.rstN = true ∧ engineActive (nextInputs s) = false ∧ t = endCycle (hostAccess (nextInputs s))) ∨
    ((nextInputs s).pins.rstN = true ∧ engineActive (nextInputs s) = true ∧
      ∃ u, engineCycle (hostAccess (nextInputs s)) = .next u ∧ t = endCycle u) := by
  unfold step at h
  split at h
  · next hr =>
    split at h
    · next ha =>
      refine .inr (.inr ⟨hr, ha, ?_⟩)
      cases he : engineCycle (hostAccess (nextInputs s)) with
      | next u => rw [he] at h; exact ⟨u, rfl, by simpa [thenEndCycle] using h.symm⟩
      | fault r => rw [he] at h; simp [thenEndCycle] at h
      | refused r => rw [he] at h; simp [thenEndCycle] at h
    · next ha => exact .inr (.inl ⟨hr, by simpa using ha, by simpa using h.symm⟩)
  · next hr => exact .inl ⟨by simpa using hr, by simpa using h.symm⟩

/-- The engine's cycle is a decoded operation's, or ILLEGAL_OP in DISPATCH. -/
theorem engineCycle_next_cases (h : engineCycle s = .next t) :
    (∃ i, runningOp s = .ok i ∧ exec i s = .next t) ∨
    ((∀ i, runningOp s ≠ .ok i) ∧ s.phase = .dispatch ∧ t = finish .illegalOp s) := by
  unfold engineCycle at h
  split at h
  · next i hi => exact .inl ⟨i, hi, h⟩
  · next e he =>
    refine .inr ⟨fun i hi => (by rw [he] at hi; cases hi), ?_⟩
    cases hp : s.phase <;> simp [illegalOpCycle, hp] at h ⊢
    exact h.symm

/-- A host write of any register but GO changes only DONE, COLLIDE and the host's configuration; a GO write sets COLLIDE or
starts an operation. -/
theorem writeHostReg_cases (r : HostReg) (v : Word) (s : State) :
    (∃ c, writeHostReg r v s = { s with cfg := c }) ∨
    (r = .status ∧ writeHostReg r v s = acknowledge v s) ∨
    (r = .go ∧ s.busy = true ∧ writeHostReg r v s = { s with collide := true }) ∨
    (r = .go ∧ s.busy = false ∧ writeHostReg r v s = startOperation (goByte v) s) := by
  cases r
  case go =>
    cases hb : s.busy
    · exact .inr (.inr (.inr ⟨rfl, rfl, by simp [writeHostReg, writeGo, hb]⟩))
    · exact .inr (.inr (.inl ⟨rfl, rfl, by simp [writeHostReg, writeGo, hb, flagsOnCollide]⟩))
  case status => exact .inr (.inl ⟨rfl, rfl⟩)
  all_goals exact .inl ⟨_, rfl⟩

/-- While an operation runs, the host's access of a cycle changes nothing the operation has: only DONE, COLLIDE, the host's
configuration and the read data. -/
theorem hostAccess_busy (hb : s.busy = true) :
    ∃ d k c r, hostAccess s = { s with done := d, collide := k, cfg := c, busRdata := r } ∧ (d = true → s.done = true) ∧
      (s.pins.busWe = false → d = s.done ∧ k = s.collide ∧ c = s.cfg) := by
  unfold hostAccess
  split
  · next hw =>
    rcases writeHostReg_cases (hostReg s.pins.busAddr) s.pins.busWdata s with ⟨c, h⟩ | ⟨-, h⟩ | ⟨-, -, h⟩ | ⟨-, h, -⟩
    · exact ⟨_, _, _, _, by rw [writeReg, h], id, by simp [hw]⟩
    · exact ⟨s.done && !s.pins.busWdata.getLsbD 1, s.collide && !s.pins.busWdata.getLsbD 2, _, _,
        by rw [writeReg, h]; rfl, by simp +contextual, by simp [hw]⟩
    · exact ⟨_, _, _, _, by rw [writeReg, h], id, by simp [hw]⟩
    · rw [hb] at h; cases h
  · exact ⟨_, _, _, _, rfl, id, fun _ => ⟨rfl, rfl, rfl⟩⟩

/-- A listed cycle of a running operation past its DISPATCH step: the operation's own cycle on the state with the cycle's
inputs, in which the host has changed at most DONE, COLLIDE, its configuration and the read data. -/
theorem step_running {i : Instr} {c : CycleIn} {rest : List EnvStep} (hb : s.busy = true) (hi : runningOp s = .ok i)
    (hp : s.phase ≠ .idle) (hd : s.phase ≠ .dispatch) (he : s.env = .cycle c :: rest) (hr : c.rstN = true) :
    ∃ d k cf r, step s = thenEndCycle (exec i
        { s with pins := c, rxStream := s.rxStream ++ c.rxArrive, env := rest, done := d, collide := k, cfg := cf,
                 busRdata := r }) ∧
      (c.busWe = false → d = s.done ∧ k = s.collide ∧ cf = s.cfg) := by
  have hn : nextInputs s = takeInputs c { s with env := rest } := by simp [nextInputs, he]
  obtain ⟨d, k, cf, r, hh, -, hq⟩ := hostAccess_busy (s := takeInputs c { s with env := rest }) hb
  have hact : engineActive (takeInputs c { s with env := rest }) = true := by
    cases hq : s.phase <;> simp_all [engineActive, takeInputs]
  have heng : ∀ u, runningOp u = .ok i → engineCycle u = exec i u := fun u hu => by simp [engineCycle, hu]
  refine ⟨d, k, cf, r, ?_, hq⟩
  unfold step
  rw [hn, if_pos (by exact hr), if_pos hact, heng _ (by rw [hh]; exact hi), hh]
  rfl

/-- What no operation's cycle changes: the host's registers, the latched operands, the ports and the model's own fields. -/
theorem exec_outside {i : Instr} (h : exec i s = .next t) :
    t.lastOp = s.lastOp ∧ t.collide = s.collide ∧ t.cfg = s.cfg ∧ t.latch = s.latch ∧ t.pins = s.pins ∧
      t.busRdata = s.busRdata ∧ t.rxTimeout = s.rxTimeout ∧ t.env = s.env ∧ t.cycle = s.cycle := by
  rcases exec_next_cases h with ⟨hp, rfl⟩ | ⟨k, hp, ht, rfl⟩ | ⟨hp, hr, rfl⟩ | ⟨k, hp, hr, rfl⟩
  · cases i <;> simp only [startOf, transact, startSetWorkingPeriod, startTransmit] <;> (repeat' split) <;>
      simp [finish, flagsOnFinish, loadFrame, beginReceive, openSync]
  · unfold transmitCycle afterWrite
    (repeat' split) <;> simp [sendByte, finish, flagsOnFinish, beginReceive, openSync]
  · unfold syncCycle syncByte windowWaits
    (repeat' split) <;> simp [finish, flagsOnFinish, openSync, openBody, takeByte, tickWindow]
  · unfold bodyCycle validate windowWaits
    (repeat' split) <;> simp [finish, flagsOnFinish, takeByte, tickWindow, storeBodyByte]
    rename_i b _ _ _ _
    obtain ⟨c, r, e, -⟩ := onValidOf_finishes i (storeBodyByte k b (takeByte (tickWindow s)))
    simp only [takeByte, tickWindow, storeBodyByte] at e
    rw [e]
    simp [finish, flagsOnFinish]

/-- The bytes an operation's cycle transfers: out, in a TX phase, the byte offered when it is accepted (R23); in, in an open
window, the channel's front byte when it is offered (R24). -/
theorem exec_streams {i : Instr} (h : exec i s = .next t) :
    (s.inTx = false → t.txStream = s.txStream) ∧
    (∀ k, s.phase = .tx k → t.txStream = s.txStream ++ if s.pins.txReady then [s.txbuf[k]] else []) ∧
    (t.rxStream = if s.inWindow = true ∧ s.pins.rxOffer = true then s.rxStream.tail else s.rxStream) := by
  rcases exec_next_cases h with ⟨hp, rfl⟩ | ⟨k, hp, ht, rfl⟩ | ⟨hp, hr, rfl⟩ | ⟨k, hp, hr, rfl⟩
  · cases i <;> simp only [startOf, transact, startSetWorkingPeriod, startTransmit] <;> (repeat' split) <;>
      simp_all [finish, flagsOnFinish, loadFrame, beginReceive, openSync, State.inTx, State.inWindow]
  · unfold transmitCycle afterWrite
    (repeat' split) <;>
      simp_all [sendByte, finish, flagsOnFinish, beginReceive, openSync, State.inTx, State.inWindow]
  · unfold syncCycle syncByte windowWaits
    cases ho : s.pins.rxOffer <;> cases hx : s.rxStream <;> (repeat' split) <;>
      simp_all [finish, flagsOnFinish, openSync, openBody, takeByte, tickWindow, State.inTx, State.inWindow,
        State.rxOffered]
  · unfold bodyCycle validate windowWaits
    cases ho : s.pins.rxOffer <;> cases hx : s.rxStream <;> simp only [State.rxOffered, ho, hx] <;> (repeat' split) <;>
      simp_all [finish, flagsOnFinish, takeByte, tickWindow, State.inTx, State.inWindow, storeBodyByte] <;>
      (obtain ⟨c, r, e, -⟩ := onValidOf_finishes i (storeBodyByte k ‹_› (takeByte (tickWindow s)))
       simp only [takeByte, tickWindow, storeBodyByte, hp, hx] at e
       simp_all [finish, flagsOnFinish])

/-- An operation's cycle finishes, or it leaves the flags and the code and goes on (R205). -/
theorem exec_finishes_or_goes_on {i : Instr} (h : exec i s = .next t) :
    (t.phase = .idle ∧ t.busy = false ∧ t.done = true) ∨
    (t.phase ≠ .idle ∧ t.busy = s.busy ∧ t.done = s.done ∧ t.code = s.code) := by
  rcases exec_next_cases h with ⟨hp, rfl⟩ | ⟨k, hp, ht, rfl⟩ | ⟨hp, hr, rfl⟩ | ⟨k, hp, hr, rfl⟩
  · cases i <;> simp only [startOf, transact, startSetWorkingPeriod, startTransmit] <;> (repeat' split) <;>
      simp [finish, flagsOnFinish, loadFrame, beginReceive, openSync]
  · unfold transmitCycle afterWrite
    (repeat' split) <;> simp [sendByte, finish, flagsOnFinish, beginReceive, openSync, hp]
  · unfold syncCycle syncByte windowWaits
    (repeat' split) <;> simp [finish, flagsOnFinish, openSync, openBody, takeByte, tickWindow, hp]
  · unfold bodyCycle validate windowWaits
    (repeat' split) <;> simp [finish, flagsOnFinish, takeByte, tickWindow, storeBodyByte, hp]
    rename_i b _ _ _ _
    obtain ⟨c, r, e, -⟩ := onValidOf_finishes i (storeBodyByte k b (takeByte (tickWindow s)))
    simp only [takeByte, tickWindow, storeBodyByte, hp] at e
    rw [e]
    simp [finish, flagsOnFinish]

/-- A cycle in which the engine is active and the host makes no access: the engine's cycle on the state with the inputs. -/
theorem step_without_access {u : State} (hn : nextInputs s = u) (ha : engineActive u = true) (hr : u.pins.rstN = true)
    (hw : u.pins.busWe = false) (hre : u.pins.busRe = false) (hb : u.busRdata = none) :
    step s = thenEndCycle (engineCycle u) := by
  have hh : hostAccess u = u := by simp [hostAccess, hw, hostRead, hre, ← hb]
  simp [step, hn, hr, ha, hh]

/-- A run of `a + b` cycles is a run of `a` and then one of `b`. -/
theorem runCycles_add (a b : Nat) (h : runCycles a s = .next t) : runCycles (a + b) s = runCycles b t := by
  induction a generalizing s with
  | zero =>
    simp only [runCycles, Host.Outcome.next.injEq] at h
    rw [Nat.zero_add, h]
  | succ a ih =>
    rw [show a + 1 + b = (a + b) + 1 by omega]
    simp only [runCycles] at h ⊢
    cases hs : step s with
    | next u => rw [hs] at h; exact ih h
    | fault r => rw [hs] at h; simp at h
    | refused r => rw [hs] at h; simp at h

end

end Sys2Proof.Machine
end

