-- ==== Sys2Proof/Laws/Bus.lean ====
section
/-! SUPPORT. The host's registers: which offset is which register, byte packing (20_memory.md R60), and what a write leaves of
the other registers. -/

namespace Sys2Proof.Machine

/-! ### Offsets -/

/-- The word index of a register in the map of R27; 63, an index with no register, for the reserved ones. -/
def regIndex : HostReg → Nat
  | .go => 0
  | .status => 1
  | .irqEn => 2
  | .dest => 3
  | .arg => 4
  | .bcmd => 5
  | .payload j => 6 + j.val
  | .rxinfo => 9
  | .resVal => 10
  | .fw => 11
  | .fwid => 12
  | .pm => 13
  | .txbuf j => 16 + j.val
  | .rxbuf j => 24 + j.val
  | .reserved => 63

/-- The register at an offset sits at its index. -/
theorem hostReg_index (a : BitVec 8) : hostReg a = .reserved ∨ regIndex (hostReg a) = a.toNat / 4 := by
  unfold hostReg
  generalize a.toNat / 4 = n
  split <;> first | exact .inl rfl | exact .inr rfl

/-- Two offsets of one register have the same index. -/
theorem index_of_hostReg_eq {a b : BitVec 8} (h : hostReg a = hostReg b) (hr : hostReg a ≠ .reserved) :
    a.toNat / 4 = b.toNat / 4 := by
  rcases hostReg_index a with h1 | h1
  · exact absurd h1 hr
  · rcases hostReg_index b with h2 | h2
    · exact absurd (h.trans h2) hr
    · rw [← h1, ← h2, h]

/-! ### Packing -/

theorem packWord_toNat (b0 b1 b2 b3 : Byte) :
    (packWord b0 b1 b2 b3).toNat = b0.toNat + 256 * b1.toNat + 65536 * b2.toNat + 16777216 * b3.toNat := by
  have := b0.isLt; have := b1.isLt; have := b2.isLt
  have e : (b3 ++ b2 : BitVec 16).toNat = b3.toNat * 256 + b2.toNat := u16be_toNat b3 b2
  unfold packWord
  rw [BitVec.toNat_append, BitVec.toNat_append, e, ← Nat.shiftLeft_add_eq_or_of_lt (by omega),
    ← Nat.shiftLeft_add_eq_or_of_lt (by omega), Nat.shiftLeft_eq, Nat.shiftLeft_eq]
  omega

theorem wordByte_toNat (v : Word) (i : Nat) : (wordByte v i).toNat = v.toNat / 2 ^ (8 * i) % 256 := by
  simp [wordByte, Nat.shiftRight_eq_div_pow]

theorem packWord_wordByte (v : Word) : packWord (wordByte v 0) (wordByte v 1) (wordByte v 2) (wordByte v 3) = v := by
  apply BitVec.eq_of_toNat_eq
  have := v.isLt
  rw [packWord_toNat]
  simp only [wordByte_toNat]
  omega

/-- Byte `i` of a packed word is the i-th byte (R60). -/
theorem wordByte_packWord (b0 b1 b2 b3 : Byte) (i : Nat) (hi : i < 4) :
    wordByte (packWord b0 b1 b2 b3) i = if i = 0 then b0 else if i = 1 then b1 else if i = 2 then b2 else b3 := by
  apply BitVec.eq_of_toNat_eq
  have := b0.isLt; have := b1.isLt; have := b2.isLt; have := b3.isLt
  rw [wordByte_toNat, packWord_toNat]
  interval_cases i <;> simp <;> omega

/-- Byte `i` of word `j` of a buffer is the buffer's byte 4j + i (R60). -/
theorem wordByte_bufferWord (b : List Byte) (j i : Nat) (hi : i < 4) :
    wordByte (bufferWord b j) i = b.getD (4 * j + i) 0 := by
  rw [bufferWord, wordByte_packWord _ _ _ _ _ hi]
  interval_cases i <;> rfl

/-- A byte of the payload after a write of word `j` (R35). -/
theorem setPayloadWord_getD (q : Vector Byte 12) (v : Word) (j : Fin 3) (n : Nat) (hn : n < 12) :
    (setPayloadWord q j v).toList.getD n 0 = if n / 4 = j.val then wordByte v (n % 4) else q.toList.getD n 0 := by
  simp [setPayloadWord, hn]

/-- The payload word written reads back, and the other two are as before (R35). -/
theorem bufferWord_setPayloadWord (q : Vector Byte 12) (v : Word) (j k : Fin 3) :
    bufferWord (setPayloadWord q j v).toList k = if j = k then v else bufferWord q.toList k := by
  have hk := k.isLt
  have h4 : ∀ i < 4, (4 * k.val + i) / 4 = k.val ∧ (4 * k.val + i) % 4 = i := fun i hi => by omega
  simp only [bufferWord]
  rw [show 4 * k.val = 4 * k.val + 0 from rfl, setPayloadWord_getD _ _ _ _ (by omega),
    setPayloadWord_getD _ _ _ _ (by omega), setPayloadWord_getD _ _ _ _ (by omega), setPayloadWord_getD _ _ _ _ (by omega)]
  simp only [Nat.add_zero, (h4 1 (by decide)).1, (h4 2 (by decide)).1, (h4 3 (by decide)).1,
    (h4 1 (by decide)).2, (h4 2 (by decide)).2, (h4 3 (by decide)).2]
  by_cases h : j = k
  · simp [h, packWord_wordByte]
  · have h' : ¬ k.val = j.val := fun e => h (Fin.ext e.symm)
    simp [h, h']

/-! ### Writes -/

/-- A write of a register other than GO and STATUS changes the value of no other register (R65). -/
theorem readHostReg_writeHostReg_ne {r q : HostReg} (hg : r ≠ .go) (hs : r ≠ .status) (hne : r ≠ q) (v : Word)
    (s : State) : readHostReg q (writeHostReg r v s) = readHostReg q s := by
  cases r with
  | go => exact absurd rfl hg
  | status => exact absurd rfl hs
  | payload j =>
    cases q with
    | payload k =>
      have hjk : j ≠ k := fun h => hne (by rw [h])
      show bufferWord (setPayloadWord s.cfg.payload j v).toList k = bufferWord s.cfg.payload.toList k
      rw [bufferWord_setPayloadWord, if_neg hjk]
    | _ => rfl
  | _ => cases q <;> first | rfl | exact absurd rfl hne

end Sys2Proof.Machine
end

