-- ==== Sys2Proof/Laws/Inv.lean ====
section
/-! SUPPORT. The parts of the invariant and what keeps each: the pieces from which "every step keeps Inv" is put together. -/

namespace Sys2Proof.Machine

/-! ### The parts of the invariant -/

/-- The part of `Inv` that speaks of no flag and no phase. -/
structure Core (s : State) : Prop where
  opLatched : s.latch.op = s.lastOp
  frameBuilt : s.txv = true → commandFrameOk s.txbuf = true
  counts : s.rxcount.toNat ≤ 10 ∧ s.discards.toNat ≤ 20
  rxbufHolds : rxbufOk s
  timer : s.wtimer ≤ s.rxTimeout ∧ 0 < s.rxTimeout

/-- A running operation: no reset in the current cycle (R230), and its flags and results (R241). -/
structure Running (s : State) : Prop where
  live : s.pins.rstN = true
  busy : s.busy = true
  done : s.done = false
  code : s.code = .none
  res : s.res = .zero

theorem Inv.core {s : State} (h : Inv s) : Core s := ⟨h.opLatched, h.frameBuilt, h.counts, h.rxbufHolds, h.timer⟩

theorem Inv.running {s : State} (h : Inv s) (hp : s.phase ≠ .idle) : Running s := by
  have hb := h.busyIff.2 hp
  obtain ⟨hd, hc⟩ := h.busyFlags hb
  exact ⟨by by_contra hl; exact hp (h.inReset (by simpa using hl)).1, hb, hd, hc, h.results.1 (by simp [hc])⟩

/-- Where the invariant holds, reset has already cleared what the levels show: `irq` is DONE and DONE_IE (R210). -/
theorem Inv.irq_eq {s : State} (h : Inv s) : s.irq = (s.done && s.cfg.doneIe) := by
  unfold State.irq
  cases hr : s.pins.rstN
  · simp [(h.inReset hr).2]
  · simp

theorem resultsOf_zero (op : Byte) : resultsOf .zero op := by simp [resultsOf, Results.zero]

/-- A running state meets `Inv` when its phase is one its operation enters, with the counters of that phase. -/
theorem Inv.of_running {s : State} (hc : Core s) (hr : Running s) (hp : s.phase ≠ .idle)
    (htx : s.inTx = true → s.txv = true ∧ ∃ i, runningOp s = .ok i ∧ transmits i = true)
    (hrx : s.inWindow = true → ∃ i, runningOp s = .ok i ∧ receives i = true)
    (hsync : s.phase = .sync → s.rxcount = 0 ∧ s.discards.toNat ≤ 19)
    (hbody : ∀ k, s.phase = .body k → s.rxcount.toNat = k.val + 1) : Inv s where
  inReset h := by simp [hr.live] at h
  busyIff := by simp [hr.busy, hp]
  busyFlags _ := ⟨hr.done, hr.code⟩
  doneCode h := by simp [hr.done] at h
  opLatched := hc.opLatched
  txPhase := htx
  rxPhase := hrx
  frameBuilt := hc.frameBuilt
  syncCounts := hsync
  bodyCounts := hbody
  counts := hc.counts
  rxbufHolds := hc.rxbufHolds
  timer := hc.timer
  codeRaised := by simp [hr.code, raisedBy, recorded]
  results := ⟨fun _ => hr.res, by rw [hr.res]; exact resultsOf_zero _⟩

/-- A finished state meets `Inv` when its code is one its operation may raise and records what it says. -/
theorem Inv.of_finish {s : State} {c : ResultCode} (hl : s.pins.rstN = true) (hc : Core s) (hn : c ≠ .none)
    (hr : raisedBy c s.lastOp) (hrec : recorded (finish c s)) (hz : c ≠ .ok → s.res = .zero) (ho : resultsOf s.res s.lastOp) : Inv (finish c s) where
  inReset h := by simp [hl] at h
  busyIff := by simp
  busyFlags h := by simp at h
  doneCode _ := by simpa using hn
  opLatched := hc.opLatched
  txPhase h := by simp [State.inTx] at h
  rxPhase h := by simp [State.inWindow] at h
  frameBuilt := hc.frameBuilt
  syncCounts h := by simp at h
  bodyCounts k h := by simp at h
  counts := hc.counts
  rxbufHolds := hc.rxbufHolds
  timer := hc.timer
  codeRaised := ⟨hr, hrec⟩
  results := ⟨by simpa using hz, ho⟩

/-- `Inv` says nothing of the host's configuration, the ports but `rst_n`, the streams, the inputs to come, the cycle number,
the free values, or COLLIDE; DONE may be cleared, and the timer may take any value in its range. -/
theorem Inv.of_outside {s : State} (h : Inv s) {d k : Bool} {c : HostConfig} {tx rx : List Byte} {p : CycleIn}
    {rd : Option Word} {off : Byte} {e : List EnvStep} {n w : Nat} (hd : d = true → s.done = true)
    (hp : s.pins.rstN = true → p.rstN = true) (hw : w ≤ s.rxTimeout) :
    Inv { s with done := d, collide := k, cfg := c, txStream := tx, rxStream := rx, pins := p, busRdata := rd,
                 txDataOff := off, env := e, cycle := n, wtimer := w } where
  inReset hr := by
    obtain ⟨hi, hn⟩ := h.inReset (by by_contra hl; simp [hp (by simpa using hl)] at hr)
    exact ⟨hi, by cases d <;> simp_all⟩
  busyIff := h.busyIff
  busyFlags hb := ⟨by cases d <;> simp_all [(h.busyFlags hb).1], (h.busyFlags hb).2⟩
  doneCode hk := h.doneCode (hd hk)
  opLatched := h.opLatched
  txPhase := h.txPhase
  rxPhase := h.rxPhase
  frameBuilt := h.frameBuilt
  syncCounts := h.syncCounts
  bodyCounts := h.bodyCounts
  counts := h.counts
  rxbufHolds := h.rxbufHolds
  timer := ⟨hw, h.timer.2⟩
  codeRaised := h.codeRaised
  results := h.results

/-! ### Reset, the host and the ends of a cycle -/

theorem resetCycle_inv {s : State} (h : 0 < s.rxTimeout) : Inv (resetCycle s) where
  inReset _ := ⟨rfl, rfl⟩
  busyIff := by simp [resetCycle, State.reset]
  busyFlags := by simp [resetCycle, State.reset]
  doneCode := by simp [resetCycle, State.reset]
  opLatched := rfl
  txPhase := by simp [resetCycle, State.reset, State.inTx]
  rxPhase := by simp [resetCycle, State.reset, State.inWindow]
  frameBuilt := by simp [resetCycle, State.reset]
  syncCounts := by simp [resetCycle, State.reset]
  bodyCounts := by simp [resetCycle, State.reset]
  counts := by simp [resetCycle, State.reset]
  rxbufHolds := by simp [rxbufOk, resetCycle, State.reset]
  timer := ⟨Nat.zero_le _, h⟩
  codeRaised := by simp [resetCycle, State.reset, raisedBy, recorded]
  results := ⟨fun _ => rfl, resultsOf_zero _⟩

theorem nextInputs_inv {s : State} (h : Inv s) (hl : (nextInputs s).pins.rstN = true) : Inv (nextInputs s) := by
  obtain ⟨p, rx, e, w, n, heq, -, hw⟩ := nextInputs_eq s
  rw [heq] at hl ⊢
  exact h.of_outside (d := s.done) (k := s.collide) (c := s.cfg) id (fun _ => hl) (by have := h.timer; omega)

theorem endCycle_inv {s : State} (h : Inv s) : Inv (endCycle s) :=
  h.of_outside (d := s.done) id id h.timer.1

theorem startOperation_inv {s : State} (h : Core s) (hl : s.pins.rstN = true) (op : Byte) :
    Inv (startOperation op s) := by
  refine Inv.of_running ⟨rfl, h.frameBuilt, h.counts, h.rxbufHolds, h.timer⟩ ⟨hl, rfl, rfl, rfl, rfl⟩ ?_ ?_ ?_ ?_ ?_ <;>
    simp [State.inTx, State.inWindow]

theorem hostAccess_inv {s : State} (h : Inv s) (hl : s.pins.rstN = true) : Inv (hostAccess s) := by
  unfold hostAccess
  split
  · rcases writeHostReg_cases (hostReg s.pins.busAddr) s.pins.busWdata s with ⟨c, e⟩ | ⟨-, e⟩ | ⟨-, -, e⟩ | ⟨-, -, e⟩ <;>
      rw [writeReg, e]
    · exact h.of_outside (d := s.done) (k := s.collide) (w := s.wtimer) id id h.timer.1
    · exact h.of_outside (d := s.done && !s.pins.busWdata.getLsbD 1) (k := s.collide && !s.pins.busWdata.getLsbD 2)
        (c := s.cfg) (w := s.wtimer) (by simp +contextual) id h.timer.1
    · exact h.of_outside (d := s.done) (k := true) (w := s.wtimer) id id h.timer.1
    · exact (startOperation_inv h.core hl (goByte s.pins.busWdata)).of_outside
        (d := false) (k := s.collide) (w := s.wtimer) (by simp) id h.timer.1
  · exact h.of_outside (d := s.done) (k := s.collide) (w := s.wtimer) id id h.timer.1

/-! ### The engine's steps -/

/-- Every frame the build step makes is well formed (R114, R118). -/
theorem commandFrameOk_frame (cmd : Byte) (p : List Byte) (dest : Half) : commandFrameOk (frame cmd p dest) = true := by
  simp only [commandFrameOk, commandChecksum_frame]
  simp [frame]

theorem loadFrame_core {s : State} (h : Core s) (cmd : Byte) (p : List Byte) : Core (loadFrame cmd p s) :=
  ⟨h.opLatched, fun _ => commandFrameOk_frame _ _ _, h.counts, h.rxbufHolds, h.timer⟩

/-- A receive phase starts with the counters of SYNC (R130). -/
theorem beginReceive_inv {s : State} (h : Core s) (hr : Running s) {i : Instr} (hi : runningOp s = .ok i)
    (hrec : receives i = true) : Inv (beginReceive s) := by
  refine Inv.of_running ⟨h.opLatched, h.frameBuilt, by simp, ?_, ⟨le_refl _, h.timer.2⟩⟩
    ⟨hr.live, hr.busy, hr.done, hr.code, hr.res⟩ (by simp) ?_ (fun _ => ⟨i, hi, hrec⟩) (by simp) (by simp)
  · simp [rxbufOk]
  · simp [State.inTx]

/-- The channel check before a write phase (R117). -/
theorem startTransmit_inv {s : State} (h : Core s) (hr : Running s) (hv : s.txv = true) {i : Instr}
    (hi : runningOp s = .ok i) (ht : transmits i = true) : Inv (startTransmit s) := by
  unfold startTransmit
  split
  · exact Inv.of_running ⟨h.opLatched, h.frameBuilt, h.counts, h.rxbufHolds, h.timer⟩
      ⟨hr.live, hr.busy, hr.done, hr.code, hr.res⟩ (by simp) (fun _ => ⟨hv, i, hi, ht⟩) (by simp [State.inWindow]) (by simp)
        (by simp)
  · refine Inv.of_finish hr.live h (by simp) ⟨i, by rw [← h.opLatched]; exact hi, ht⟩ ?_ (fun _ => hr.res) ?_
    · simpa [recorded] using hv
    · rw [hr.res]; exact resultsOf_zero _

theorem finish_precondition_inv {s : State} (h : Core s) (hr : Running s) {i : Instr} (hi : runningOp s = .ok i)
    (hm : i ∈ [Instr.build, .send, .setWorkingPeriod]) : Inv (finish .precondition s) :=
  Inv.of_finish hr.live h (by simp) ⟨i, hm, by rw [← h.opLatched]; exact hi⟩ trivial (fun _ => hr.res)
    (by rw [hr.res]; exact resultsOf_zero _)

theorem transact_inv {s : State} (h : Core s) (hr : Running s) {i : Instr} (hi : runningOp s = .ok i)
    (ht : transmits i = true) (cmd : Byte) (p : List Byte) : Inv (transact cmd p s) :=
  startTransmit_inv (loadFrame_core h cmd p) ⟨hr.live, hr.busy, hr.done, hr.code, hr.res⟩ rfl hi ht

theorem startOf_inv {s : State} (h : Inv s) (hp : s.phase = .dispatch) {i : Instr} (hi : runningOp s = .ok i) :
    Inv (startOf i s) := by
  have hr : Running s := h.running (by simp [hp])
  cases i <;> simp only [startOf]
  case build =>
    split
    · refine finish_precondition_inv (i := .build) ⟨h.opLatched, by simp, h.counts, h.rxbufHolds, h.timer⟩
        ⟨hr.live, hr.busy, hr.done, hr.code, hr.res⟩ hi (by simp)
    · exact Inv.of_finish hr.live (loadFrame_core h.core _ _) (by simp) trivial trivial (by simp)
        (by simp [hr.res, resultsOf_zero])
  case send =>
    split
    · next hv => exact startTransmit_inv h.core hr hv hi (by decide)
    · exact finish_precondition_inv h.core hr hi (by simp)
  case receive => exact beginReceive_inv h.core hr hi (by decide)
  case setWorkingPeriod =>
    unfold startSetWorkingPeriod
    split
    · exact finish_precondition_inv h.core hr hi (by simp)
    · exact transact_inv h.core hr hi (by decide) _ _
  all_goals exact transact_inv h.core hr hi (by decide) _ _

theorem transmitCycle_inv {s : State} (h : Inv s) {k : Fin 19} (hp : s.phase = .tx k) {i : Instr}
    (hi : runningOp s = .ok i) (ht : transmits i = true) : Inv (transmitCycle (afterWrite i) k s) := by
  have hr : Running s := h.running (by simp [hp])
  have hc : Core (sendByte k s) := ⟨h.opLatched, h.frameBuilt, h.counts, h.rxbufHolds, h.timer⟩
  have hr' : Running (sendByte k s) := ⟨hr.live, hr.busy, hr.done, hr.code, hr.res⟩
  have hv : s.txv = true := (h.txPhase (by simp [State.inTx, hp])).1
  unfold transmitCycle
  split
  · split
    · exact Inv.of_running ⟨h.opLatched, h.frameBuilt, h.counts, h.rxbufHolds, h.timer⟩
        ⟨hr.live, hr.busy, hr.done, hr.code, hr.res⟩ (by simp) (fun _ => ⟨hv, i, hi, ht⟩) (by simp [State.inWindow]) (by simp)
        (by simp)
    · unfold afterWrite
      split
      · next hcmd => exact beginReceive_inv hc hr' hi (by simp [receives, hcmd])
      · exact Inv.of_finish hr.live hc (by simp) trivial trivial (by simp) (by simp [hr.res, resultsOf_zero])
  · exact h

/-- The failures of a receive phase (R200: TIMEOUT to BAD_TAIL). -/
theorem finish_receive_inv {s : State} {c : ResultCode} (h : Core s) (hr : Running s) {i : Instr}
    (hi : runningOp s = .ok i) (hrec : receives i = true)
    (hm : c ∈ [ResultCode.timeout, .syncFail, .bodyIncomplete, .badChecksum, .badTail])
    (hrecd : recorded (finish c s)) : Inv (finish c s) := by
  refine Inv.of_finish hr.live h ?_ ?_ hrecd (fun _ => hr.res) (by rw [hr.res]; exact resultsOf_zero _)
  · rintro rfl; simp at hm
  · have : ∃ i, decodeOp s.lastOp = .ok i ∧ receives i = true := ⟨i, by rw [← h.opLatched]; exact hi, hrec⟩
    fin_cases hm <;> exact this

theorem windowWaits_core {s : State} (h : Core s) : Core (tickWindow s) :=
  ⟨h.opLatched, h.frameBuilt, h.counts, h.rxbufHolds, ⟨Nat.le_trans (Nat.sub_le _ _) h.timer.1, h.timer.2⟩⟩

theorem discards_succ {d : BitVec 5} (h : d.toNat ≤ 19) : (d + 1).toNat = d.toNat + 1 := by
  rw [BitVec.toNat_add]; simp; omega

theorem syncCycle_inv {s : State} (h : Inv s) (hp : s.phase = .sync) {i : Instr} (hi : runningOp s = .ok i)
    (hrec : receives i = true) : Inv (syncCycle s) := by
  have hr : Running s := h.running (by simp [hp])
  obtain ⟨hcount, hdis⟩ := h.syncCounts hp
  have ht := h.timer
  have htick : s.wtimer - 1 ≤ s.rxTimeout := by omega
  have hbuf : ∀ j : Fin 10, s.rxbuf[j] = 0 := fun j => h.rxbufHolds.2 j (by simp [hcount])
  unfold syncCycle
  split
  · next b hb =>
    unfold syncByte
    split
    · refine Inv.of_running ⟨h.opLatched, h.frameBuilt, ?_, ?_, ⟨le_refl _, ht.2⟩⟩ ⟨hr.live, hr.busy, hr.done, hr.code, hr.res⟩
        (by simp) (by simp [State.inTx]) (fun _ => ⟨i, hi, hrec⟩) (by simp) ?_
      · exact ⟨by simp, h.counts.2⟩
      · refine ⟨fun _ => by simp, fun j hj => ?_⟩
        have hj0 : j.val ≠ 0 := by rintro hz; simp [hz] at hj
        have := hbuf j
        simp only [openBody, takeByte, tickWindow, Fin.getElem_fin] at this ⊢
        rw [Vector.getElem_set_ne _ _ (by omega)]
        exact this
      · rintro k hk
        simp at hk
        subst hk
        simp
    · split
      · next heq =>
        refine finish_receive_inv ⟨h.opLatched, h.frameBuilt, ⟨h.counts.1, ?_⟩, h.rxbufHolds, ⟨htick, ht.2⟩⟩
          ⟨hr.live, hr.busy, hr.done, hr.code, hr.res⟩ hi hrec (by simp) ?_
        · simp [SYNC_CAP] at heq; simp [heq]
        · simp [SYNC_CAP] at heq; simp [recorded, hcount, heq]
      · next hne =>
        have hs := discards_succ hdis
        have h19 : (s.discards + 1).toNat ≤ 19 := by
          by_contra hgt
          exact hne (BitVec.eq_of_toNat_eq (show (s.discards + 1).toNat = 20 by omega))
        refine Inv.of_running ⟨h.opLatched, h.frameBuilt, ⟨h.counts.1, ?_⟩, h.rxbufHolds, ⟨le_refl _, ht.2⟩⟩
          ⟨hr.live, hr.busy, hr.done, hr.code, hr.res⟩ (by simp) (by simp [State.inTx]) (fun _ => ⟨i, hi, hrec⟩)
          (fun _ => ⟨hcount, h19⟩) (by simp)
        show (s.discards + 1).toNat ≤ 20
        omega
  · unfold windowWaits
    split
    · exact finish_receive_inv (windowWaits_core h.core) ⟨hr.live, hr.busy, hr.done, hr.code, hr.res⟩ hi hrec (by simp)
        (by simpa [recorded, hcount] using hdis)
    · exact h.of_outside (d := s.done) (k := s.collide) (w := s.wtimer - 1) id id htick

/-- The decodes keep the invariant: their codes are their operation's own, and they write only its results (R45, R200). -/
theorem onValidOf_inv {s : State} (h : Core s) (hr : Running s) (h10 : s.rxcount.toNat = 10)
    (hv : responseValid s.rxbuf = true) {i : Instr} (hi : runningOp s = .ok i) (hrec : receives i = true) :
    Inv (onValidOf i s) := by
  have hop : decodeOp s.lastOp = .ok i := by rw [← h.opLatched]; exact hi
  have hok : ∀ r : Results, resultsOf r s.lastOp → Inv (finish .ok { s with res := r }) := fun r ho =>
    Inv.of_finish hr.live ⟨h.opLatched, h.frameBuilt, h.counts, h.rxbufHolds, h.timer⟩ (by simp) trivial trivial (by simp) ho
  have hdec : i ∈ [Instr.getSleep, .getMode, .queryDust, .getWorkingPeriod] → Inv (finish .decodeFail s) := fun hm =>
    Inv.of_finish hr.live h (by simp) ⟨i, hm, hop⟩ ⟨h10, hv⟩ (fun _ => hr.res) (by rw [hr.res]; exact resultsOf_zero _)
  have hmis : i ∈ [Instr.setSleep, .setMode, .setId, .setWorkingPeriod] → ∀ e, Inv (finishEcho e s) := fun hm e => by
    unfold finishEcho
    split
    · exact Inv.of_finish hr.live h (by simp) trivial trivial (by simp) (by rw [hr.res]; exact resultsOf_zero _)
    · exact Inv.of_finish hr.live h (by simp) ⟨i, hm, hop⟩ ⟨h10, hv⟩ (fun _ => hr.res) (by rw [hr.res]; exact resultsOf_zero _)
  have hz := hr.res
  cases i <;> first | exact absurd hrec (by decide) | skip
  all_goals simp only [onValidOf]
  case receive => exact hok s.res (by rw [hz]; exact resultsOf_zero _)
  case getSleep =>
    unfold decodeGetSleep
    split
    · exact hok _ (by simp [resultsOf, hz, Results.zero, hop])
    · split
      · exact hok _ (by simp [resultsOf, hz, Results.zero])
      · exact hdec (by simp)
  case getMode =>
    unfold decodeGetMode
    split
    · exact hok _ (by simp [resultsOf, hz, Results.zero, hop])
    · exact hdec (by simp)
  case firmwareVersion => exact hok _ (by simp [resultsOf, hz, Results.zero, hop])
  case queryDust =>
    unfold decodeQueryDust
    split
    · exact hok _ (by simp [resultsOf, hz, Results.zero, hop])
    · exact hdec (by simp)
  case getWorkingPeriod =>
    unfold decodeGetWorkingPeriod
    split
    · exact hok _ (by simp [resultsOf, hz, Results.zero, hop])
    · exact hdec (by simp)
  all_goals exact hmis (by simp) _

/-- Capturing a body byte keeps RXBUF as RXCOUNT says (R134). -/
theorem storeBodyByte_rxbufOk {s : State} {k : Fin 9} (h : rxbufOk s) (hc : s.rxcount.toNat = k.val + 1) (b : Byte) :
    rxbufOk (storeBodyByte k b s) := by
  have hk := k.isLt
  have h0 : s.rxcount ≠ 0 := by rintro hz; simp [hz] at hc
  refine ⟨fun _ => ?_, fun j hj => ?_⟩
  · simp only [storeBodyByte_rxbuf]
    rw [Vector.getElem_set_ne _ _ (by omega)]
    exact h.1 h0
  · have hj' : k.val + 2 ≤ j.val := by
      simp only [storeBodyByte_rxcount, BitVec.toNat_ofNat] at hj
      omega
    have := h.2 j (by omega)
    simp only [storeBodyByte_rxbuf, Fin.getElem_fin] at this ⊢
    rw [Vector.getElem_set_ne _ _ (by omega)]
    exact this

theorem bodyCycle_inv {s : State} (h : Inv s) {k : Fin 9} (hp : s.phase = .body k) {i : Instr}
    (hi : runningOp s = .ok i) (hrec : receives i = true) : Inv (bodyCycle (onValidOf i) k s) := by
  have hr : Running s := h.running (by simp [hp])
  have hcount := h.bodyCounts k hp
  have ht := h.timer
  have htick : s.wtimer - 1 ≤ s.rxTimeout := by omega
  have hk := k.isLt
  unfold bodyCycle
  split
  · next b hb =>
    have hn : (storeBodyByte k b (takeByte (tickWindow s))).rxcount.toNat = k.val + 2 := by
      simp; omega
    have hc : Core (storeBodyByte k b (takeByte (tickWindow s))) :=
      ⟨h.opLatched, h.frameBuilt, ⟨by omega, h.counts.2⟩,
        storeBodyByte_rxbufOk (s := takeByte (tickWindow s)) h.rxbufHolds hcount b, ⟨htick, ht.2⟩⟩
    have hr' : Running (storeBodyByte k b (takeByte (tickWindow s))) := ⟨hr.live, hr.busy, hr.done, hr.code, hr.res⟩
    split
    · refine Inv.of_running ⟨hc.opLatched, hc.frameBuilt, hc.counts, hc.rxbufHolds, hc.timer⟩
        ⟨hr.live, hr.busy, hr.done, hr.code, hr.res⟩ (by simp) (by simp [State.inTx]) (fun _ => ⟨i, hi, hrec⟩) (by simp) ?_
      rintro j hj
      simp at hj
      subst hj
      simp; omega
    · have h10 : (storeBodyByte k b (takeByte (tickWindow s))).rxcount.toNat = 10 := by omega
      unfold validate
      split
      · next hcs =>
        split
        · next htl => exact onValidOf_inv hc hr' h10 (by simp only [responseValid, hcs, htl]; rfl) hi hrec
        · next htl => exact finish_receive_inv hc hr' hi hrec (by simp) ⟨h10, hcs, by simpa using htl⟩
      · next hcs => exact finish_receive_inv hc hr' hi hrec (by simp) ⟨h10, by simpa using hcs⟩
  · unfold windowWaits
    split
    · exact finish_receive_inv (windowWaits_core h.core) ⟨hr.live, hr.busy, hr.done, hr.code, hr.res⟩ hi hrec (by simp)
        (by simp [recorded]; omega)
    · exact h.of_outside (d := s.done) (k := s.collide) (w := s.wtimer - 1) id id htick

/-- An op code that is no operation finishes ILLEGAL_OP (R92, R201). -/
theorem illegalOp_inv {s : State} (h : Inv s) (hp : s.phase = .dispatch) (hn : ∀ i, runningOp s ≠ .ok i) :
    Inv (finish .illegalOp s) := by
  have hr : Running s := h.running (by simp [hp])
  exact Inv.of_finish hr.live h.core (by simp) (fun i hi => hn i (by rw [runningOp, h.opLatched]; exact hi)) trivial
    (fun _ => hr.res) (by rw [hr.res]; exact resultsOf_zero _)

/-- Every cycle of the running operation keeps the invariant. -/
theorem exec_inv {s t : State} (h : Inv s) {i : Instr} (hi : runningOp s = .ok i) (he : exec i s = .next t) : Inv t := by
  rcases exec_next_cases he with ⟨hp, rfl⟩ | ⟨k, hp, ht, rfl⟩ | ⟨hp, hr, rfl⟩ | ⟨k, hp, hr, rfl⟩
  · exact startOf_inv h hp hi
  · exact transmitCycle_inv h hp hi ht
  · exact syncCycle_inv h hp hi hr
  · exact bodyCycle_inv h hp hi hr

end Sys2Proof.Machine
end

