-- ==== Sys2Proof/Laws/PerInstr.lean ====
section
/-! SUPPORT. Statements about every instruction as syntax, one lemma per constructor of Instr. -/

namespace Sys2Proof.Laws.RoundTrip

/-- The operation's bytes decode to it, and it is well formed (30_encoding.md R88, R90). -/
def Statement (i : Instr) : Prop := i.wf = true ∧ ∀ rest : List Byte, decode (encode i ++ rest) = .ok (i, rest)

theorem build : Statement .build := ⟨rfl, fun _ => rfl⟩
theorem send : Statement .send := ⟨rfl, fun _ => rfl⟩
theorem receive : Statement .receive := ⟨rfl, fun _ => rfl⟩
theorem getSleep : Statement .getSleep := ⟨rfl, fun _ => rfl⟩
theorem setSleep : Statement .setSleep := ⟨rfl, fun _ => rfl⟩
theorem getMode : Statement .getMode := ⟨rfl, fun _ => rfl⟩
theorem setMode : Statement .setMode := ⟨rfl, fun _ => rfl⟩
theorem firmwareVersion : Statement .firmwareVersion := ⟨rfl, fun _ => rfl⟩
theorem queryDust : Statement .queryDust := ⟨rfl, fun _ => rfl⟩
theorem setId : Statement .setId := ⟨rfl, fun _ => rfl⟩
theorem setWorkingPeriod : Statement .setWorkingPeriod := ⟨rfl, fun _ => rfl⟩
theorem getWorkingPeriod : Statement .getWorkingPeriod := ⟨rfl, fun _ => rfl⟩

end Sys2Proof.Laws.RoundTrip
end

