-- ==== Sys2Proof/Tests/Slice0.lean ====
section
/-! SUPPORT. Tests: ill-formed terms refused, op codes and frames written out from the spec, one step or two for each operation
with the expected result taken from spec/95_test_vectors.md (named V<n> there), and for each statement with hypotheses a
concrete input that meets them. -/

open Sys2Proof Sys2Proof.Machine

namespace Sys2Proof.Tests

/-! ### Ill-formed terms -/

theorem test_period_31_ill_formed : (WireCommand.setWorkingPeriod 31).wf = false := by decide
theorem test_period_30_well_formed : (WireCommand.setWorkingPeriod 30).wf = true := by decide
theorem test_payload_13_does_not_fit : payloadFits (List.replicate 13 0) = false := by decide
theorem test_payload_12_fits : payloadFits (List.replicate 12 0) = true := by decide
theorem test_period_31_frame_is_no_command :
    parseCommand (encodeCommand (.setWorkingPeriod 31) 0xFFFF) = .error .noSuchCommand := by decide

/-! ### Op codes, bit by bit from 30_encoding.md R90 -/

theorem test_decode_build : decode [0b00000001] = .ok (.build, []) := by decide
theorem test_decode_send : decode [0b00000010] = .ok (.send, []) := by decide
theorem test_decode_receive : decode [0b00000011] = .ok (.receive, []) := by decide
theorem test_decode_get_sleep : decode [0b00010000] = .ok (.getSleep, []) := by decide
theorem test_decode_set_sleep : decode [0b00010001] = .ok (.setSleep, []) := by decide
theorem test_decode_get_mode : decode [0b00010010] = .ok (.getMode, []) := by decide
theorem test_decode_set_mode : decode [0b00010011] = .ok (.setMode, []) := by decide
theorem test_decode_firmware_version : decode [0b00010100] = .ok (.firmwareVersion, []) := by decide
theorem test_decode_query_dust : decode [0b00010101] = .ok (.queryDust, []) := by decide
theorem test_decode_set_id : decode [0b00010110] = .ok (.setId, []) := by decide
theorem test_decode_set_working_period : decode [0b00010111] = .ok (.setWorkingPeriod, []) := by decide
theorem test_decode_get_working_period : decode [0b00011000] = .ok (.getWorkingPeriod, []) := by decide
theorem test_decode_keeps_the_rest : decode [0x15, 0x42, 0x01] = .ok (.queryDust, [0x42, 0x01]) := by decide
theorem test_decode_illegal_42 : decode [0x42] = .error (.illegalOp 0x42) := by decide
theorem test_decode_illegal_edges :
    decode [0x00] = .error (.illegalOp 0x00) ∧ decode [0x04] = .error (.illegalOp 0x04) ∧
    decode [0x0F] = .error (.illegalOp 0x0F) ∧ decode [0x19] = .error (.illegalOp 0x19) := by decide
theorem test_decode_nothing : decode [] = .error .noByte := by decide
/-- V93: bits [31:8] of a GO write are ignored. -/
theorem test_go_104_is_op_04 : goByte 0x104 = 0x04 := by decide

/-! ### Frames (95_test_vectors.md section 2.1) -/

/-- V1. -/
def frameV1 : CommandFrame :=
  #v[0xAA, 0xB4, 0x06, 0x00, 0x00, 0x00, 0x00, 0x00, 0x00, 0x00, 0x00, 0x00, 0x00, 0x00, 0x00, 0xFF, 0xFF, 0x04, 0xAB]

theorem test_V1_get_sleep : encodeCommand .getSleep 0xFFFF = frameV1 := by decide
theorem test_V1_reads_back : parseCommand frameV1 = .ok (.getSleep, 0xFFFF) := by decide
theorem test_V2_set_sleep : (encodeCommand (.setSleep true) 0xABCD)[17] = 0x7F ∧
    (encodeCommand (.setSleep true) 0xABCD)[4] = 0x00 := by decide
theorem test_V10_set_id : encodeCommand (.setId 0x1234) 0xFFFF =
    #v[0xAA, 0xB4, 0x05, 0x00, 0x00, 0x00, 0x00, 0x00, 0x00, 0x00, 0x00, 0x00, 0x00, 0x12, 0x34, 0xFF, 0xFF, 0x49, 0xAB] := by
  decide
theorem test_V11_set_working_period : encodeCommand (.setWorkingPeriod 30) 0xFFFF =
    #v[0xAA, 0xB4, 0x08, 0x01, 0x1E, 0x00, 0x00, 0x00, 0x00, 0x00, 0x00, 0x00, 0x00, 0x00, 0x00, 0xFF, 0xFF, 0x25, 0xAB] := by
  decide
theorem test_V16a_sum_wraps : (frame 0xFF (List.replicate 12 0xFF) 0xFFFF)[17] = 0xF1 := by decide
theorem test_V16b_checksum : (frame 0x04 [1, 2, 3, 4, 5, 6, 7, 8, 9, 10, 11, 12] 0x0102)[17] = 0x55 := by decide
theorem test_checksum_error_refused : parseCommand (frameV1.set 17 0x05) = .error .badChecksum := by decide

/-! ### States for the tests -/

/-- Operation `i` at phase `p`, as the block stands in it: BUSY, the operands latched, a window of 3 cycles; the channel open,
accepting and offering. -/
def opAt (p : Phase) (i : Instr) (arg : Half) : State :=
  { State.reset with
    busy := true, phase := p, lastOp := opCode i, rxTimeout := 3, wtimer := 2, pins := Spec.serveCycle
    latch := { op := opCode i, dest := 0xABCD, arg := arg, cmd := 0x06, plen := 2,
               payload := #v[0x01, 0x00, 0xEE, 0xEE, 0, 0, 0, 0, 0xFF, 0xFF, 0xFF, 0xFF] } }

/-- Operation `i` about to take the last byte of a response whose other bytes it has. -/
def lastByte (i : Instr) (arg : Half) (f : ResponseFrame) : State :=
  { opAt (.body 8) i arg with rxbuf := f.set 9 0, rxcount := 9, rxStream := [f[9], 0x77] }

/-- How an operation ends in a cycle, if it ends. -/
def ending (o : Host.Outcome State Fault Refusal) : Option (ResultCode × Results) :=
  match o with
  | .next t => if t.busy = false ∧ t.done = true ∧ t.phase = .idle then some (t.code, t.res) else none
  | .fault _ | .refused _ => none

/-- A value read off the next state. -/
def after {α : Type} (o : Host.Outcome State Fault Refusal) (f : State → α) : Option α :=
  match o with
  | .next t => some (f t)
  | .fault _ | .refused _ => none

/-! ### One step of each operation -/

/-- V16c, with destination ABCD: bytes past PLEN are padded with 0. AB + CD + 06 + 01 = 17F. -/
theorem test_build : after (exec .build (opAt .dispatch .build 0)) (fun t => (t.code, t.txv, t.txbuf)) =
    some (.ok, true, #v[0xAA, 0xB4, 0x06, 0x01, 0x00, 0x00, 0x00, 0x00, 0x00, 0x00, 0x00, 0x00, 0x00, 0x00, 0x00,
      0xAB, 0xCD, 0x7F, 0xAB]) := by decide
/-- V17. -/
theorem test_build_plen_13 :
    after (exec .build { opAt .dispatch .build 0 with txv := true, latch := { (opAt .dispatch .build 0).latch with plen := 13 } })
      (fun t => (t.code, t.txv, t.txbuf)) = some (.precondition, false, Vector.replicate 19 0) := by decide
/-- V19. -/
theorem test_send_without_frame : ending (exec .send (opAt .dispatch .send 0)) = some (.precondition, .zero) := by decide
/-- V20, its last byte. -/
theorem test_send_last_byte :
    after (exec .send { opAt (.tx 18) .send 0 with txbuf := frameV1, txv := true }) (fun t => (t.code, t.txStream)) =
      some (.ok, [0xAB]) := by decide
/-- V33, its 20th noise byte. -/
theorem test_receive_20th_noise :
    after (exec .receive { opAt .sync .receive 0 with discards := 19, rxStream := [0x55, 0xAA] })
      (fun t => (t.code, t.discards, t.rxcount, t.rxStream)) = some (.syncFail, 20, 0, [0xAA]) := by decide
/-- V30, its last byte. -/
theorem test_receive_last_byte :
    after (exec .receive (lastByte .receive 0 #v[0xAA, 0xC0, 0xD4, 0x04, 0x3A, 0x0A, 0xAB, 0xCD, 0x54, 0xAB]))
      (fun t => (t.code, t.rxcount, t.rxbuf[9], t.rxStream)) = some (.ok, 10, 0xAB, [0x77]) := by decide
/-- V51, V50. -/
theorem test_get_sleep_sleeping :
    ending (exec .getSleep (lastByte .getSleep 0 #v[0xAA, 0xC5, 0x06, 0x00, 0x00, 0x00, 0xFF, 0xFF, 0xC9, 0xAB])) =
      some (.ok, { Results.zero with val := 1 }) := by decide
/-- V52. -/
theorem test_get_sleep_undecodable :
    ending (exec .getSleep (lastByte .getSleep 0 #v[0xAA, 0xC5, 0x06, 0x00, 0x02, 0x00, 0xFF, 0xFF, 0xCB, 0xAB])) =
      some (.decodeFail, .zero) := by decide
/-- V54, V57: ARG[0] alone says sleep. -/
theorem test_set_sleep_asleep :
    ending (exec .setSleep (lastByte .setSleep 1 #v[0xAA, 0xC5, 0x06, 0x01, 0x00, 0x00, 0xFF, 0xFF, 0xCA, 0xAB])) =
      some (.ok, .zero) := by decide
theorem test_set_sleep_arg_2_is_wake :
    ending (exec .setSleep (lastByte .setSleep 2 #v[0xAA, 0xC5, 0x06, 0x01, 0x01, 0x00, 0xFF, 0xFF, 0xCB, 0xAB])) =
      some (.ok, .zero) := by decide
/-- V59, V60. -/
theorem test_get_mode_1 :
    ending (exec .getMode (lastByte .getMode 0 #v[0xAA, 0xC5, 0x02, 0x00, 0x01, 0x00, 0xFF, 0xFF, 0xC6, 0xAB])) =
      some (.ok, { Results.zero with val := 1 }) := by decide
theorem test_get_mode_5 :
    ending (exec .getMode (lastByte .getMode 0 #v[0xAA, 0xC5, 0x02, 0x00, 0x05, 0x00, 0xFF, 0xFF, 0xCA, 0xAB])) =
      some (.decodeFail, .zero) := by decide
/-- E3: ARG[15:8] is ignored. -/
theorem test_set_mode_0155 :
    ending (exec .setMode (lastByte .setMode 0x0155 #v[0xAA, 0xC5, 0x02, 0x01, 0x55, 0x00, 0xFF, 0xFF, 0x1B, 0xAB])) =
      some (.ok, .zero) := by decide
/-- V62. -/
theorem test_set_mode_mismatch :
    ending (exec .setMode (lastByte .setMode 1 #v[0xAA, 0xC5, 0x02, 0x01, 0x00, 0x00, 0xAB, 0xCD, 0x40, 0xAB])) =
      some (.logicalMismatch, .zero) := by decide
/-- V64: RESPONSE_ID is not checked; FW = 0x00100B12, FWID = 0xABCD. -/
theorem test_firmware_version :
    after (exec .firmwareVersion
        (lastByte .firmwareVersion 0 #v[0xAA, 0xC0, 0x07, 0x12, 0x0B, 0x10, 0xAB, 0xCD, 0x6C, 0xAB]))
      (fun t => (t.code, readReg 0x2C t, readReg 0x30 t)) = some (.ok, 0x00100B12, 0x0000ABCD) := by decide
/-- V66: PM = 0x0A3A04D4. -/
theorem test_query_dust :
    after (exec .queryDust (lastByte .queryDust 0 #v[0xAA, 0xC0, 0xD4, 0x04, 0x3A, 0x0A, 0xAB, 0xCD, 0x54, 0xAB]))
      (fun t => (t.code, readReg 0x34 t)) = some (.ok, 0x0A3A04D4) := by decide
/-- V67. -/
theorem test_query_dust_ack_id :
    ending (exec .queryDust (lastByte .queryDust 0 #v[0xAA, 0xC5, 0xD4, 0x04, 0x3A, 0x0A, 0xAB, 0xCD, 0x59, 0xAB])) =
      some (.decodeFail, .zero) := by decide
/-- V71, V72. -/
theorem test_set_id :
    ending (exec .setId (lastByte .setId 0x1234 #v[0xAA, 0xC5, 0x05, 0x00, 0x00, 0x00, 0x12, 0x34, 0x10, 0xAB])) =
      some (.ok, .zero) := by decide
theorem test_set_id_old_id_echoed :
    ending (exec .setId (lastByte .setId 0x1234 #v[0xAA, 0xC5, 0x05, 0x00, 0x00, 0x00, 0xAB, 0xCD, 0x42, 0xAB])) =
      some (.logicalMismatch, .zero) := by decide
/-- V76: the period is checked in full. -/
theorem test_set_working_period_256 :
    ending (exec .setWorkingPeriod (opAt .dispatch .setWorkingPeriod 0x0100)) = some (.precondition, .zero) := by decide
/-- V74. -/
theorem test_set_working_period_echo_29 :
    ending (exec .setWorkingPeriod
      (lastByte .setWorkingPeriod 30 #v[0xAA, 0xC5, 0x08, 0x01, 0x1D, 0x00, 0xFF, 0xFF, 0xE9, 0xAB])) =
      some (.logicalMismatch, .zero) := by decide
/-- V79, V80. -/
theorem test_get_working_period_30 :
    ending (exec .getWorkingPeriod
      (lastByte .getWorkingPeriod 0 #v[0xAA, 0xC5, 0x08, 0x00, 0x1E, 0x00, 0xFF, 0xFF, 0xE9, 0xAB])) =
      some (.ok, { Results.zero with val := 30 }) := by decide
theorem test_get_working_period_31 :
    ending (exec .getWorkingPeriod
      (lastByte .getWorkingPeriod 0 #v[0xAA, 0xC5, 0x08, 0x00, 0x1F, 0x00, 0xAB, 0xCD, 0x64, 0xAB])) =
      some (.decodeFail, .zero) := by decide

/-! ### The receive phase -/

/-- V39a: the checksum is checked first. -/
theorem test_bad_checksum_and_tail :
    ending (exec .receive (lastByte .receive 0 #v[0xAA, 0xC0, 0xD4, 0x04, 0x3A, 0x0A, 0xAB, 0xCD, 0x55, 0x00])) =
      some (.badChecksum, .zero) := by decide
/-- V38. -/
theorem test_bad_tail :
    ending (exec .receive (lastByte .receive 0 #v[0xAA, 0xC0, 0xD4, 0x04, 0x3A, 0x0A, 0xAB, 0xCD, 0x54, 0xAC])) =
      some (.badTail, .zero) := by decide
/-- R207(c): a byte in the window's last cycle beats its expiry. -/
theorem test_byte_beats_expiry :
    after (exec .receive { opAt .sync .receive 0 with wtimer := 1, rxStream := [0xAA] }) (fun t => (t.phase, t.wtimer)) =
      some (.body 0, 3) := by decide
/-- R131: an empty last cycle ends the window. -/
theorem test_window_expires :
    ending (exec .receive { opAt (.body 3) .receive 0 with wtimer := 1, rxcount := 4 }) = some (.bodyIncomplete, .zero) := by
  decide

/-! ### The host's registers (95_test_vectors.md section 2.4) -/

/-- V90 to V92: STATUS = 0x00000A02 after an op code that is none, LAST_OP its byte. -/
theorem test_V91_illegal_op :
    after (step (State.reset.withFetchWord 8 0x42)) (fun t => (readReg 0x04 t, readReg 0x00 t, t.txStream)) =
      some (0x00000A02, 0x42, []) := by decide
/-- V94. -/
theorem test_V94_go_while_busy :
    (writeReg 0x00 0x15 (opAt .sync .receive 0)).collide = true ∧ (writeReg 0x00 0x15 (opAt .sync .receive 0)).lastOp = 0x03 := by
  decide
/-- V95, V96. -/
theorem test_V95_clear_collide :
    readReg 0x04 (writeReg 0x04 0x4 { State.reset with done := true, collide := true, code := .ok }) = 0x00000102 := by decide
theorem test_V96_clear_both :
    readReg 0x04 (writeReg 0x04 0x6 { State.reset with done := true, collide := true, code := .ok }) = 0x00000100 := by decide
theorem test_reset_dest : readReg 0x0C State.reset = 0x0000FFFF := by decide
theorem test_payload_byte_order :
    (writeReg 0x18 0xEEEE0001 State.reset).cfg.payload = #v[0x01, 0x00, 0xEE, 0xEE, 0, 0, 0, 0, 0, 0, 0, 0] := by decide
theorem test_bcmd_fields :
    (writeReg 0x14 0xFFFFF206 State.reset).cfg.cmd = 0x06 ∧ (writeReg 0x14 0xFFFFF206 State.reset).cfg.plen = 2 ∧
    readReg 0x14 (writeReg 0x14 0xFFFFF206 State.reset) = 0x00000206 := by decide
theorem test_low_address_bits_ignored :
    readReg 0x0F (writeReg 0x0E 0x1234 State.reset) = 0x1234 := by decide
theorem test_read_only_registers_ignore_writes : readReg 0x28 (writeReg 0x28 0xFF State.reset) = 0 := by decide
theorem test_txbuf_word : readReg 0x40 { State.reset with txbuf := frameV1 } = 0x0006B4AA ∧
    readReg 0x50 { State.reset with txbuf := frameV1 } = 0x00AB04FF := by decide
/-- Both strobes at once: the write is performed (R63). -/
theorem test_both_strobes_write :
    after (step { State.reset with
        env := [.cycle { quietCycle true with busAddr := 0x0C, busWdata := 0xABCD, busWe := true, busRe := true }] })
      (fun t => (t.cfg.dest, t.busRdata.isSome)) = some (0xABCD, true) := by decide
/-- R69: a STATUS read in the cycle of a `finish` sees BUSY = 1; V100: a STATUS write there cannot clear the new DONE. -/
theorem test_status_read_at_finish :
    after (step { opAt .dispatch .build 0 with env := [busRead 0x04] }) (fun t => (t.busRdata, t.done)) =
      some (some 1, true) := by decide
theorem test_status_write_at_finish :
    after (step { opAt .dispatch .build 0 with env := [busWrite 0x04 0x6] }) (fun t => t.done) = some true := by decide
/-- R63, R69: a cycle with a read and no `finish` returns the register as it is, also while an operation waits in SYNC. -/
theorem test_read_while_an_operation_waits :
    after (step { opAt .sync .receive 0 with env := [busRead 0x0C] }) (fun t => (t.busRdata, t.phase)) =
      some (some 0x0000FFFF, .sync) := by decide
/-- R230: reset inside an operation. -/
theorem test_reset_inside_an_operation :
    after (step { opAt (.tx 5) .queryDust 0 with env := [.cycle { quietCycle true with rstN := false, txReady := true }] })
      (fun t => (t.phase, t.busy, t.cfg.dest, t.txStream)) = some (.idle, false, 0xFFFF, []) := by decide
/-- R230: a read in a reset cycle returns the reset value, here of DEST where the host had written another. -/
theorem test_read_in_reset :
    after (step { writeReg 0x0C 0xABCD State.reset with
        env := [.cycle { quietCycle true with rstN := false, busRe := true, busAddr := 0x0C }] })
      (fun t => t.busRdata) = some (some 0x0000FFFF) := by decide
/-- R42: a write of ARG while an operation runs changes the register, and not the latched operand. -/
theorem test_arg_write_leaves_latch :
    (writeReg 0x10 0x1234 (opAt .sync .setId 0x5678)).cfg.arg = 0x1234 ∧
    (writeReg 0x10 0x1234 (opAt .sync .setId 0x5678)).latch.arg = 0x5678 := by decide
/-- Every operation of the table runs as the first one after reset. -/
theorem test_first_operation_runs :
    ∀ i ∈ [Instr.getSleep, .setSleep, .getMode, .setMode, .firmwareVersion, .queryDust, .setId, .setWorkingPeriod,
        .getWorkingPeriod],
      after (step (State.reset.withFetchWord 8 (opCode i).toNat)) (fun t => (t.phase, t.txv, t.latch.op)) =
        some (.tx 0, true, opCode i) := by decide

/-! ### Witnesses: for each statement with hypotheses, inputs that meet them all, clause by clause -/

theorem test_witness_OperationBytesRoundTrip : decodeOp 0x18 = .ok .getWorkingPeriod := by decide
theorem test_witness_CommandFrameRoundTrip :
    (WireCommand.setWorkingPeriod 30).wf = true ∧ (WireCommand.setMode 0xFF).wf = true := by decide
theorem test_witness_CommandFrameReadsOneWay : parseCommand frameV1 = .ok (.getSleep, 0xFFFF) := test_V1_reads_back
theorem test_witness_FrameLayout : payloadFits [1, 2, 3, 4, 5, 6, 7, 8, 9, 10, 11, 12] = true ∧ payloadFits [] = true := by
  decide
theorem test_witness_FrameChecksumCoverage : payloadFits (List.replicate 12 0xFF) = true := by decide
theorem test_witness_BuildRule : ∃ s : State, s.phase = .dispatch ∧ s.latch.plen.toNat = 12 :=
  ⟨{ opAt .dispatch .build 0 with latch := { (opAt .dispatch .build 0).latch with plen := 12 } }, by decide⟩
theorem test_witness_BuildRefusesLongPayload : ∃ s : State, s.phase = .dispatch ∧ s.latch.plen.toNat = 13 :=
  ⟨{ opAt .dispatch .build 0 with latch := { (opAt .dispatch .build 0).latch with plen := 13 } }, by decide⟩
theorem test_witness_SendRule :
    (opAt .dispatch .send 0).phase = .dispatch ∧ (opAt .dispatch .send 0).txv = false ∧
    (∃ s : State, s.phase = .dispatch ∧ s.txv = true ∧ s.pins.chanOpen = true) ∧
    (opAt (.tx 18) .send 0).phase = .tx 18 ∧ (opAt (.tx 18) .send 0).pins.txReady = true :=
  ⟨by decide, by decide, ⟨{ opAt .dispatch .send 0 with txv := true }, by decide⟩, by decide, by decide⟩
/-- TX(0), TX(17) and the stall in TX(18). -/
theorem test_witness_TransmitOneByte :
    transmits .send = true ∧ transmits .queryDust = true ∧ (opAt (.tx 0) .send 0).phase = .tx ⟨0, by decide⟩ ∧
    (opAt (.tx 17) .send 0).phase = .tx ⟨17, by decide⟩ ∧ (opAt (.tx 17) .send 0).pins.txReady = true ∧
    ({ opAt (.tx 18) .send 0 with pins := quietCycle true } : State).pins.txReady = false := by decide
/-- Eighteen accepted bytes, the most before TX(18), and a cycle in which none is accepted. -/
theorem test_witness_WritePhaseSendsInOrder :
    (opAt (.tx 0) .send 0).busy = true ∧ runningOp (opAt (.tx 0) .send 0) = .ok .send ∧ transmits .send = true ∧
    (∀ c ∈ quietCycle false :: List.replicate 18 Spec.serveCycle, c.rstN = true) ∧
    (quietCycle false :: List.replicate 18 Spec.serveCycle).countP (·.txReady) < 19 := by decide
theorem test_witness_ReceivePhaseStarts :
    (opAt .dispatch .receive 0).phase = .dispatch ∧ isCommand .setId = true ∧ (opAt (.tx 18) .setId 0).phase = .tx 18 ∧
    (opAt (.tx 18) .setId 0).pins.txReady = true := by decide
/-- HEAD, the 19th discard and the 20th. -/
theorem test_witness_SyncByteRule :
    receives .receive = true ∧ (opAt .sync .receive 0).phase = .sync ∧
    Spec.offers { opAt .sync .receive 0 with rxStream := [0xAA] } 0xAA [] ∧
    (∃ s : State, s.phase = .sync ∧ Spec.offers s 0xAB [0xAA] ∧ s.discards.toNat = 18) ∧
    ∃ s : State, s.phase = .sync ∧ Spec.offers s 0xAB [0xAA] ∧ s.discards.toNat = 19 :=
  ⟨by decide, by decide, ⟨rfl, rfl⟩,
    ⟨{ opAt .sync .receive 0 with rxStream := [0xAB, 0xAA], discards := 18 }, rfl, ⟨rfl, rfl⟩, rfl⟩,
    ⟨{ opAt .sync .receive 0 with rxStream := [0xAB, 0xAA], discards := 19 }, rfl, ⟨rfl, rfl⟩, rfl⟩⟩
/-- A window's last cycle and the one before it, in SYNC and in BODY(9). -/
theorem test_witness_WindowExpiryRule :
    receives .getMode = true ∧ (opAt .sync .getMode 0).rxStream = [] ∧ (opAt .sync .getMode 0).phase = .sync ∧
    (opAt .sync .getMode 0).wtimer = 2 ∧ (opAt (.body 8) .getMode 0).phase = .body 8 ∧
    ({ opAt (.body 8) .getMode 0 with wtimer := 1 } : State).wtimer ≤ 1 := by decide
theorem test_witness_BodyByteRule :
    receives .receive = true ∧ (opAt (.body 0) .receive 0).phase = .body ⟨0, by decide⟩ ∧
    (opAt (.body 7) .receive 0).phase = .body ⟨7, by decide⟩ ∧
    Spec.offers { opAt (.body 7) .receive 0 with rxStream := [0xAA] } 0xAA [] ∧
    (opAt (.body 8) .receive 0).phase = .body 8 ∧
    Spec.offers { opAt (.body 8) .receive 0 with rxStream := [0xAB] } 0xAB [] :=
  ⟨by decide, by decide, by decide, ⟨rfl, rfl⟩, rfl, rfl, rfl⟩
/-- V39a and V38. -/
theorem test_witness_BadFramesRejected :
    (∃ s : State, s.phase = .body 8 ∧ Spec.offers s 0x00 [0x77] ∧ Spec.frameSum s.rxbuf % 256 ≠ s.rxbuf[8].toNat) ∧
    ∃ s : State, s.phase = .body 8 ∧ Spec.offers s 0xAC [0x77] ∧ Spec.frameSum s.rxbuf % 256 = s.rxbuf[8].toNat :=
  ⟨⟨lastByte .receive 0 #v[0xAA, 0xC0, 0xD4, 0x04, 0x3A, 0x0A, 0xAB, 0xCD, 0x55, 0x00], rfl, ⟨rfl, rfl⟩, by decide⟩,
    ⟨lastByte .receive 0 #v[0xAA, 0xC0, 0xD4, 0x04, 0x3A, 0x0A, 0xAB, 0xCD, 0x54, 0xAC], rfl, ⟨rfl, rfl⟩, by decide⟩⟩
/-- A state in BODY(9) that is offered the last byte of a valid frame: RECEIVE and the nine command rules; their first clause
asks for DISPATCH only, which `test_witness_CommandRequest` shows. -/
theorem test_witness_ReceiveCompletes_and_command_rules :
    ∃ s : State, s.phase = .body 8 ∧ 0 < s.wtimer ∧ Spec.offers s 0xAB [0x77] ∧
      responseValid (Spec.fullFrame 0xAB s) = true :=
  ⟨lastByte .receive 0 #v[0xAA, 0xC0, 0xD4, 0x04, 0x3A, 0x0A, 0xAB, 0xCD, 0x54, 0xAB], rfl, by decide, ⟨rfl, rfl⟩, by decide⟩
/-- The reference frame X of the vectors, changed at F[1] and at F[9]. -/
theorem test_witness_SingleByteErrorsDetected :
    responseValid #v[0xAA, 0xC0, 0xD4, 0x04, 0x3A, 0x0A, 0xAB, 0xCD, 0x54, 0xAB] = true ∧
    responseValid #v[0xAA, 0xC1, 0xD4, 0x04, 0x3A, 0x0A, 0xAB, 0xCD, 0x54, 0xAB] = false ∧
    responseValid #v[0xAA, 0xC0, 0xD4, 0x04, 0x3A, 0x0A, 0xAB, 0xCD, 0x54, 0xAC] = false := by decide
/-- Nineteen noise bytes and HEAD; twenty noise bytes. -/
theorem test_witness_SyncToleratesNineteen :
    ∀ n ∈ [19, 20], ∃ s : State, s.busy = true ∧ runningOp s = .ok .receive ∧ receives .receive = true ∧
      s.phase = .sync ∧ s.env = (List.replicate 20 Spec.serveCycle).map EnvStep.cycle ++ [] ∧
      s.rxStream = List.replicate n (0x55 : Byte) ++ [0xAA, 0x77] ∧
      s.discards.toNat + (List.replicate n (0x55 : Byte)).length = n ∧ (∀ b ∈ List.replicate n (0x55 : Byte), b ≠ 0xAA) ∧
      ∀ c ∈ List.replicate 20 Spec.serveCycle, c.rstN = true ∧ c.rxOffer = true ∧ c.rxArrive = [] := by
  intro n hn
  refine ⟨{ opAt .sync .receive 0 with
    rxStream := List.replicate n (0x55 : Byte) ++ [0xAA, 0x77]
    env := (List.replicate 20 Spec.serveCycle).map EnvStep.cycle ++ [] },
    rfl, rfl, rfl, rfl, rfl, rfl, by simp [opAt, State.reset], by simp, by decide⟩
/-- Both arms of the channel check; SET_WORKING_PERIOD at its largest period. -/
theorem test_witness_CommandRequest :
    (opAt .dispatch .setWorkingPeriod 30).phase = .dispatch ∧
    requestOf .setWorkingPeriod (opAt .dispatch .setWorkingPeriod 30).latch = some (.setWorkingPeriod 30) ∧
    (opAt .dispatch .setWorkingPeriod 30).pins.chanOpen = true ∧
    ({ opAt .dispatch .setWorkingPeriod 30 with pins := quietCycle false } : State).pins.chanOpen = false := by decide
theorem test_witness_PeriodAboveThirtyRefused :
    (opAt .dispatch .setWorkingPeriod 31).phase = .dispatch ∧ 30 < (opAt .dispatch .setWorkingPeriod 31).latch.arg.toNat := by
  decide
/-- V66 behind 19 noise bytes: 49 cycles. -/
theorem test_witness_CommandRunsToFinish :
    ∃ (s : State) (noise : List Byte) (f : ResponseFrame), s.busy = true ∧ runningOp s = .ok .queryDust ∧
      s.phase = .dispatch ∧ requestOf .queryDust s.latch = some .queryDust ∧ noise.length ≤ 19 ∧
      (∀ b ∈ noise, b ≠ 0xAA) ∧ f[0] = 0xAA ∧ responseValid f = true ∧ s.rxStream = noise ++ f.toList ++ [0x77] ∧
      s.env = List.replicate (30 + noise.length) (.cycle Spec.serveCycle) ++ [.expire] :=
  ⟨{ opAt .dispatch .queryDust 0 with
      rxStream := List.replicate 19 0x55 ++ [0xAA, 0xC0, 0xD4, 0x04, 0x3A, 0x0A, 0xAB, 0xCD, 0x54, 0xAB] ++ [0x77]
      env := List.replicate 49 (.cycle Spec.serveCycle) ++ [.expire] },
    List.replicate 19 0x55, #v[0xAA, 0xC0, 0xD4, 0x04, 0x3A, 0x0A, 0xAB, 0xCD, 0x54, 0xAB],
    rfl, rfl, rfl, rfl, by decide, by decide, by decide, by decide, rfl, rfl⟩
theorem test_witness_CommandsIgnoreEarlierFrames :
    isCommand .getSleep = true ∧ (opAt .dispatch .getSleep 0).phase = .dispatch ∧
    requestOf .getSleep (opAt .dispatch .getSleep 0).latch ≠ none ∧ (opAt (.tx 18) .getSleep 0).phase = .tx 18 ∧
    (opAt (.tx 18) .getSleep 0).pins.txReady = true := by decide
theorem test_witness_GoWriteRule :
    (0x03 : BitVec 8).toNat / 4 = 0 ∧ State.reset.busy = false ∧ (opAt .sync .receive 0).busy = true := by decide
theorem test_witness_StatusWriteOneToClear : (0x07 : BitVec 8).toNat / 4 = 1 := by decide
/-- IRQ_EN and PAYLOAD2, the ends of the range. -/
theorem test_witness_OperandRegistersHoldWrites :
    2 ≤ (0x08 : BitVec 8).toNat / 4 ∧ (0x23 : BitVec 8).toNat / 4 ≤ 8 := by decide
/-- IRQ_EN and PAYLOAD2, the ends of the operand registers; RXINFO and the last offset, those of the rest. -/
theorem test_witness_WritesTouchOneRegister :
    2 ≤ (0x08 : BitVec 8).toNat / 4 ∧ (0x08 : BitVec 8).toNat / 4 ≠ (0x0C : BitVec 8).toNat / 4 ∧
    (0x23 : BitVec 8).toNat / 4 ≤ 8 ∧
    9 ≤ (0x24 : BitVec 8).toNat / 4 ∧ 9 ≤ (0xFF : BitVec 8).toNat / 4 := by decide
/-- The last byte of each buffer. -/
theorem test_witness_BuffersPackLittleEndian : 4 * 2 + 3 < 12 ∧ 4 * 4 + 2 < 19 ∧ 4 * 2 + 1 < 10 := by decide
/-- 0x38, 0x54, 0x6C and 0xFC: the ends of the unlisted ranges. -/
theorem test_witness_ResultRegistersRead :
    (0x38 : BitVec 8).toNat / 4 = 14 ∧ (0x54 : BitVec 8).toNat / 4 = 21 ∧ (0x6C : BitVec 8).toNat / 4 = 27 ∧
    readReg 0xFC State.reset = 0 := by decide
theorem test_witness_StepRunsOperation :
    (nextInputs { opAt .sync .receive 0 with env := [busRead 0x04] }).pins.rstN = true ∧
    engineActive (nextInputs { opAt .sync .receive 0 with env := [busRead 0x04] }) = true ∧
    decode [(hostAccess (nextInputs { opAt .sync .receive 0 with env := [busRead 0x04] })).latch.op] = .ok (.receive, []) ∧
    Instr.receive.wf = true := by decide
/-- The second clause, in DISPATCH and in BODY(9): a listed cycle of a running operation with a read, and one with a write. -/
theorem test_witness_StepRunsOperation_listed :
    ∀ e ∈ [busRead 0x04, busWrite 0x0C 0xABCD], ∀ p ∈ [Phase.dispatch, .body 8], ∃ c : CycleIn, e = .cycle c ∧
      (opAt p .receive 0).busy = true ∧ (opAt p .receive 0).phase ≠ .idle ∧ c.dispatchHold = false ∧
      decode [(opAt p .receive 0).latch.op] = .ok (.receive, []) ∧ c.rstN = true := by
  intro e he p hp
  fin_cases he <;> fin_cases hp <;> exact ⟨_, rfl, rfl, by decide, rfl, rfl, rfl⟩
theorem test_witness_PlacedOperationRuns : decodeTableWord 8 0x18 = some .getWorkingPeriod := by decide

/-- A block after reset, with a window of 1 cycle and these inputs to come. -/
def fresh (ie : Bool) (env : List EnvStep) : State :=
  { resetCycle { State.reset with rxTimeout := 1, env := env } with
    cfg := { (State.reset).cfg with doneIe := ie } }

theorem test_fresh_inv (ie : Bool) (env : List EnvStep) : Inv (fresh ie env) :=
  (resetCycle_inv (s := { State.reset with rxTimeout := 1, env := env }) Nat.one_pos).of_outside
    (d := false) (k := false) (w := 0) (by simp) id (Nat.zero_le _)

/-- 0x42 is no op code; a quiet cycle, a STATUS read and a write of DEST in its DISPATCH step. -/
theorem test_witness_UnlistedOpFinishesIllegal :
    ∀ e ∈ [.cycle (quietCycle true), busRead 0x04, busWrite 0x0C 0xABCD], ∃ c : CycleIn, e = .cycle c ∧
      (startOperation 0x42 (fresh false [e])).busy = true ∧ (startOperation 0x42 (fresh false [e])).phase = .dispatch ∧
      (∀ i, runningOp (startOperation 0x42 (fresh false [e])) ≠ .ok i) ∧ c.rstN = true ∧ c.dispatchHold = false := by
  intro e he
  fin_cases he <;> exact ⟨_, rfl, rfl, rfl, fun i h => (nomatch h), rfl, rfl⟩
/-- Inside a write phase, with a read of DEST and with one of LAST_OP. -/
theorem test_witness_ResetCycleRestores :
    ∀ a ∈ [(0x0C : BitVec 8), 0x00], ∃ (s : State) (c : CycleIn), s.phase ≠ .idle ∧ s.env = [.cycle c] ∧ c.rstN = false ∧
      c.busRe = true ∧ c.busWe = false ∧ c.busAddr = a := fun a _ =>
  let c : CycleIn := { quietCycle true with rstN := false, busRe := true, busAddr := a }
  ⟨{ opAt (.tx 5) .queryDust 0 with env := [.cycle c] }, c, by simp [opAt], rfl, rfl, rfl, rfl, rfl⟩
/-- In IDLE, and in a DISPATCH that is put off; a cycle without an access. -/
theorem test_witness_IdleBlockWaits :
    State.reset.phase = .idle ∧ (opAt .dispatch .build 0).phase = .dispatch ∧
    ({ quietCycle true with dispatchHold := true } : CycleIn).dispatchHold = true ∧ (quietCycle true).rstN = true ∧
    (quietCycle true).busWe = false ∧ (quietCycle true).busRe = false := by decide
/-- A GO write in the block after reset. -/
theorem test_witness_GoCycleLeavesDispatch :
    ∃ c rest, busWrite 0x00 0x15 = .cycle c ∧ Inv (fresh false (.cycle c :: rest)) ∧
      (fresh false (.cycle c :: rest)).phase = .idle ∧ c.rstN = true ∧ c.busWe = true ∧ c.busAddr.toNat / 4 = 0 :=
  ⟨_, [], rfl, test_fresh_inv false _, rfl, rfl, rfl, rfl⟩
/-- A read of STATUS, and a GO write, in the cycle of a `finish`. -/
theorem test_witness_HostActsBeforeFinish :
    ∀ e ∈ [busRead 0x04, busWrite 0x00 0x15],
      Inv (startOperation 0x42 (fresh false [e])) ∧ (startOperation 0x42 (fresh false [e])).phase ≠ .idle ∧
      ∃ t, step (startOperation 0x42 (fresh false [e])) = .next t ∧ t.phase = .idle := by
  intro e he
  refine ⟨startOperation_inv (test_fresh_inv false [e]).core rfl 0x42, by decide +revert, ?_⟩
  fin_cases he <;> exact ⟨_, rfl, rfl⟩
theorem test_witness_ReadsHaveNoSideEffect :
    ∃ t, step { opAt .dispatch .build 0 with env := [busRead 0x04] } = .next t := ⟨_, rfl⟩
theorem test_witness_ExpiryIsQuietWindow :
    (opAt .sync .receive 0).inWindow = true ∧ 0 < (opAt .sync .receive 0).wtimer := by decide
/-- `irq` rises at a `finish`, and falls by a STATUS write. -/
theorem test_witness_IrqRisesAndFalls :
    (∃ s t, Inv s ∧ step s = .next t ∧ s.irq = false ∧ t.irq = true ∧ s.phase ≠ .idle ∧ t.phase = .idle ∧
      t.pins.rstN = true) ∧
    ∃ s t, Inv s ∧ step s = .next t ∧ s.irq = true ∧ t.irq = false :=
  ⟨⟨startOperation 0x42 (fresh true [.cycle (quietCycle true)]), _, startOperation_inv (test_fresh_inv true _).core rfl 0x42, rfl,
      rfl, rfl, by decide, rfl, rfl⟩,
    ⟨finish .illegalOp (startOperation 0x42 (fresh true [busWrite 0x04 0x2])), _,
      illegalOp_inv (startOperation_inv (test_fresh_inv true _).core rfl 0x42) rfl (fun _ h => nomatch h), rfl, rfl, rfl⟩⟩
/-- RECEIVE in its first window of 1 cycle, with fifty cycles to come. -/
theorem test_witness_ReceivePhaseEnds :
    ∃ s : State, Inv s ∧ s.phase = .sync ∧ s.discards = 0 ∧ s.wtimer = s.rxTimeout ∧ (∀ e ∈ s.env, e.noReset = true) ∧
      21 * s.rxTimeout + 29 ≤ s.env.length := by
  have h := startOperation_inv (test_fresh_inv false (List.replicate 50 .expire)).core rfl 0x03
  refine ⟨_, beginReceive_inv h.core (h.running (by simp)) (i := .receive) rfl (by decide), rfl, rfl, rfl, ?_, ?_⟩
  · show ∀ e ∈ List.replicate 50 EnvStep.expire, e.noReset = true
    decide
  · show 21 * 1 + 29 ≤ (List.replicate 50 EnvStep.expire).length
    decide
theorem test_witness_OperationFrame_and_OperandWrites :
    ∃ t, exec .build (opAt .dispatch .build 0) = .next t ∧ t.phase = .idle := ⟨_, rfl, rfl⟩
theorem test_witness_StepKeepsInv :
    Inv (startOperation 0x15 (fresh false [.cycle (quietCycle true)])) ∧
    ∃ t, step (startOperation 0x15 (fresh false [.cycle (quietCycle true)])) = .next t ∧ t.phase = .tx 0 :=
  ⟨startOperation_inv (test_fresh_inv false _).core rfl 0x15, _, rfl, rfl⟩

theorem test_witness_WellFormedStepNeverStops : Inv (fresh false [.expire]) := test_fresh_inv false _

/-! ### The ports -/

/-- GET_SLEEP about to run, its DISPATCH step taken, and RECEIVE in its first window, with one cycle `c` to come. -/
def portStates (c : CycleIn) : List State :=
  [fresh true [.cycle c], startOperation 0x10 (fresh true [.cycle c]),
    startTransmit { loadFrame 6 [0, 0] (startOperation 0x10 (fresh true [.cycle c])) with pins := quietCycle true },
    beginReceive (startOperation 0x03 (fresh true [.cycle c]))]

/-- R230: in IDLE, DISPATCH, TX(0) and SYNC alike, the three levels are 0 in a cycle with `rst_n = 0`, the first one too. -/
theorem test_levels_0_in_reset :
    ∀ s ∈ portStates { Spec.serveCycle with rstN := false },
      (nextInputs s).txValid = false ∧ (nextInputs s).rxReady = false ∧ (nextInputs s).irq = false := by decide
/-- R40, R23: TX(0) offers HEAD, 0xAA. -/
theorem test_levels_in_tx :
    ((portStates Spec.serveCycle).map fun s => ((nextInputs s).txValid, (nextInputs s).rxReady)) =
      [(false, false), (false, false), (true, false), (false, true)] ∧
    ((portStates Spec.serveCycle)[2]?.map fun s => (nextInputs s).txData) = some 0xAA := by decide
/-- Every phase of the statement, with and without reset. -/
theorem test_witness_OutputPortsAndTransfers :
    ∀ b : Bool, ∀ s ∈ portStates { Spec.serveCycle with rstN := b },
      Inv s ∧ s.env = [.cycle { Spec.serveCycle with rstN := b }] ∧ ∃ t, step s = .next t := by
  intro b s hs
  have h0 := test_fresh_inv true [.cycle { Spec.serveCycle with rstN := b }]
  have h1 := startOperation_inv h0.core rfl 0x10
  have h3 := startOperation_inv h0.core rfl 0x03
  simp only [portStates, List.mem_cons, List.not_mem_nil, or_false] at hs
  rcases hs with rfl | rfl | rfl | rfl
  · exact ⟨h0, rfl, by cases b <;> exact ⟨_, rfl⟩⟩
  · exact ⟨h1, rfl, by cases b <;> exact ⟨_, rfl⟩⟩
  · exact ⟨startTransmit_inv ⟨rfl, fun _ => commandFrameOk_frame _ _ _, h1.counts, h1.rxbufHolds, h1.timer⟩
      ⟨rfl, rfl, rfl, rfl, rfl⟩ rfl (i := .getSleep) rfl (by decide), rfl, by cases b <;> exact ⟨_, rfl⟩⟩
  · exact ⟨beginReceive_inv h3.core (h3.running (by simp)) (i := .receive) rfl (by decide), rfl,
      by cases b <;> exact ⟨_, rfl⟩⟩

end Sys2Proof.Tests
end

section
/-! SUPPORT. The statements of 10_state.md: the invariant, the host's registers, the frame of the operations, and the ports. -/

namespace Sys2Proof.Machine

/-! ### The invariant -/

/-- No cycle's inputs change the length of the read window (R8). -/
theorem nextInputs_rxTimeout (s : State) : (nextInputs s).rxTimeout = s.rxTimeout := by
  obtain ⟨p, rx, e, w, n, h, -⟩ := nextInputs_eq s
  rw [h]

/-- The engine's cycle keeps the invariant, be its op code an operation's or not. -/
theorem engineCycle_inv {s t : State} (h : Inv s) (he : engineCycle s = .next t) : Inv t := by
  rcases engineCycle_next_cases he with ⟨i, hi, hx⟩ | ⟨hn, hp, rfl⟩
  · exact exec_inv h hi hx
  · exact illegalOp_inv h hp hn

/-- Settles O58: a cycle is a reset, the host's access alone, or the host's access and then the engine's cycle, and each of
these keeps the invariant. -/
theorem stepKeepsInv : Obligations.StepKeepsInv := by
  intro s t h hs
  rcases step_next_cases hs with ⟨-, rfl⟩ | ⟨hl, -, rfl⟩ | ⟨hl, -, u, hu, rfl⟩
  · exact resetCycle_inv (by rw [nextInputs_rxTimeout]; exact h.timer.2)
  · exact endCycle_inv (hostAccess_inv (nextInputs_inv h hl) hl)
  · exact endCycle_inv (engineCycle_inv (hostAccess_inv (nextInputs_inv h hl) hl) hu)

/-! ### Host writes -/

/-- Offsets of one word index reach the same register: `addr[1:0]` is ignored (R64). -/
theorem hostReg_eq_of_index {a b : BitVec 8} (h : a.toNat / 4 = b.toNat / 4) : hostReg a = hostReg b := by
  rw [hostReg, hostReg, h]

/-- A write at GO's offset. -/
theorem writeReg_go {a : BitVec 8} (h : a.toNat / 4 = 0) (v : Word) (s : State) : writeReg a v s = writeGo v s := by
  rw [writeReg, hostReg_eq_of_index (b := 0x00) h]
  rfl

/-- A write at STATUS's offset. -/
theorem writeReg_status {a : BitVec 8} (h : a.toNat / 4 = 1) (v : Word) (s : State) :
    writeReg a v s = acknowledge v s := by
  rw [writeReg, hostReg_eq_of_index (b := 0x04) h]
  rfl

/-- Settles O36: BUSY decides which arm of the GO write acts. -/
theorem goWriteRule : Obligations.GoWriteRule := by
  intro s a v ha
  rw [writeReg_go ha]
  cases hb : s.busy
  · simp [writeGo, hb, startOperation, flagsOnStart, captureOperands, goByte]
  · simp [writeGo, hb, flagsOnCollide]

/-- Settles O38: a flag ANDed with the negated bit is cleared exactly where the bit is 1. -/
theorem statusWriteOneToClear : Obligations.StatusWriteOneToClear := by
  intro s a v ha
  have hclear : ∀ f b : Bool, (f && !b) = if b = true then false else f := by decide
  rw [writeReg_status ha, acknowledge, flagsOnStatusWrite, hclear, hclear]

/-- A host write in an idle block is the whole effect of its cycle on the block (R41). -/
theorem step_idle_write {s : State} {c : CycleIn} {rest : List EnvStep} (hp : s.phase = .idle)
    (he : s.env = .cycle c :: rest) (hr : c.rstN = true) (hw : c.busWe = true) :
    ∃ r, step s = .next (endCycle { writeReg c.busAddr c.busWdata (nextInputs s) with busRdata := r }) := by
  have hn := nextInputs_cycle he
  have ha : engineActive (nextInputs s) = false := by simp [hn, engineActive, hp]
  have hl : (nextInputs s).pins = c := by rw [hn]
  refine ⟨hostRead (nextInputs s), ?_⟩
  simp [step, ha, hostAccess, hl, hr, hw]

/-- Settles O37: BUSY is 0 in an idle block, so the GO write starts the operation, and the engine has no step yet. -/
theorem goCycleLeavesDispatch : Obligations.GoCycleLeavesDispatch := by
  intro s c rest h hp he hr hw ha
  have hb : s.busy = false := by
    cases hb : s.busy
    · rfl
    · exact absurd hp (h.busyIff.1 hb)
  obtain ⟨r, hs⟩ := step_idle_write hp he hr hw
  rw [goWriteRule _ _ _ ha, nextInputs_cycle he, if_neg (by simp [hb])] at hs
  exact ⟨_, hs, rfl, rfl, rfl, rfl, rfl, rfl, rfl, rfl, rfl, rfl⟩

/-! ### Fields of a host register -/

/-- Appended bits as a number. -/
theorem append_toNat {n m : Nat} (x : BitVec n) (y : BitVec m) : (x ++ y).toNat = x.toNat * 2 ^ m + y.toNat := by
  rw [BitVec.toNat_append, ← Nat.shiftLeft_add_eq_or_of_lt y.isLt, Nat.shiftLeft_eq]

/-- The low `n` bits of a word, widened again, are the word masked to them. -/
theorem setWidth_extractLsb'_zero (v : Word) (n : Nat) (hn : n ≤ 32) :
    (v.extractLsb' 0 n).setWidth 32 = v &&& BitVec.ofNat 32 (2 ^ n - 1) := by
  have hle : 2 ^ n ≤ 2 ^ 32 := Nat.pow_le_pow_right (by decide) hn
  have hmod : v.toNat % 2 ^ n < 2 ^ 32 := (Nat.mod_lt _ (Nat.two_pow_pos n)).trans_le hle
  have hmask : 2 ^ n - 1 < 2 ^ 32 := by omega
  apply BitVec.eq_of_toNat_eq
  rw [BitVec.toNat_and, BitVec.toNat_ofNat, Nat.mod_eq_of_lt hmask, Nat.and_two_pow_sub_one_eq_mod,
    BitVec.toNat_setWidth, BitVec.extractLsb'_toNat, Nat.shiftRight_zero, Nat.mod_eq_of_lt hmod]

/-- IRQ_EN keeps bit 0 of the word written (R31). -/
theorem read_irqEn_write (v : Word) (s : State) :
    readHostReg .irqEn (writeHostReg .irqEn v s) = v &&& 0x00000001 := by
  have hbit : BitVec.ofBool (v.getLsbD 0) = v.extractLsb' 0 1 := by
    ext i hi
    simp [show i = 0 by omega]
  exact (congrArg (BitVec.setWidth 32) hbit).trans (setWidth_extractLsb'_zero v 1 (by decide))

/-- BCMD keeps CMD and PLEN, bits [11:0] of the word written (R34). -/
theorem read_bcmd_write (v : Word) (s : State) : readHostReg .bcmd (writeHostReg .bcmd v s) = v &&& 0x00000FFF := by
  refine Eq.trans ?_ (setWidth_extractLsb'_zero v 12 (by decide))
  apply BitVec.eq_of_toNat_eq
  simp only [readHostReg, writeHostReg, append_toNat, BitVec.extractLsb'_toNat, BitVec.toNat_setWidth,
    BitVec.toNat_ofNat, Nat.shiftRight_eq_div_pow]
  omega

/-- A payload word keeps all its bits (R35). -/
theorem read_payload_write (j : Fin 3) (v : Word) (s : State) :
    readHostReg (.payload j) (writeHostReg (.payload j) v s) = v := by
  simp [readHostReg, writeHostReg, bufferWord_setPayloadWord]

/-- Settles O39, register by register: IRQ_EN to BCMD keep their low bits, and a payload word keeps all 32. -/
theorem operandRegistersHoldWrites : Obligations.OperandRegistersHoldWrites := by
  intro s a v h2 h8
  have hreg : ∀ b : BitVec 8, a.toNat / 4 = b.toNat / 4 →
      readReg a (writeReg a v s) = readHostReg (hostReg b) (writeHostReg (hostReg b) v s) := fun b h => by
    rw [readReg, writeReg, hostReg_eq_of_index h]
  obtain h | h | h | h | h | h | h : a.toNat / 4 = 2 ∨ a.toNat / 4 = 3 ∨ a.toNat / 4 = 4 ∨ a.toNat / 4 = 5 ∨
      a.toNat / 4 = 6 ∨ a.toNat / 4 = 7 ∨ a.toNat / 4 = 8 := by omega
  all_goals simp only [h, reduceIte, Nat.reduceEqDiff]
  · exact (hreg 0x08 h).trans (read_irqEn_write v s)
  · exact (hreg 0x0C h).trans (setWidth_extractLsb'_zero v 16 (by decide))
  · exact (hreg 0x10 h).trans (setWidth_extractLsb'_zero v 16 (by decide))
  · exact (hreg 0x14 h).trans (read_bcmd_write v s)
  · exact (hreg 0x18 h).trans (read_payload_write 0 v s)
  · exact (hreg 0x1C h).trans (read_payload_write 1 v s)
  · exact (hreg 0x20 h).trans (read_payload_write 2 v s)

/-! ### What the registers read -/

/-- Settles O42: STATUS and RXINFO append their fields, and each reserved gap between them is 0. -/
theorem statusAndRxinfoFields : Obligations.StatusAndRxinfoFields := by
  intro s
  constructor
  · show (statusWord s).toNat = _
    simp only [statusWord, append_toNat, BitVec.toNat_ofBool, BitVec.toNat_ofNat]
    omega
  · show (rxinfoWord s).toNat = _
    simp only [rxinfoWord, append_toNat, BitVec.toNat_ofBool, BitVec.toNat_ofNat]
    omega

/-- RXBUF2 packs RXBUF[8] and RXBUF[9] below two bytes that the buffer does not have (R38). -/
theorem bufferWord_rxbuf_two (b : ResponseFrame) : bufferWord b.toList 2 = packWord b[8] b[9] 0 0 := by
  simp [bufferWord]

/-- The two upper bytes of a packed word whose upper bytes are 0 (R38, R39). -/
theorem packWord_upper_zero (b0 b1 : Byte) : (packWord b0 b1 0 0).extractLsb' 16 16 = 0 := by
  have := b0.isLt; have := b1.isLt
  apply BitVec.eq_of_toNat_eq
  simp only [BitVec.extractLsb'_toNat, packWord_toNat, Nat.shiftRight_eq_div_pow, BitVec.toNat_zero,
    BitVec.ofNat_eq_ofNat]
  omega

/-- The offsets that R27 does not list reach no register. -/
theorem hostReg_unlisted {a : BitVec 8} (h14 : 14 ≤ a.toNat / 4)
    (h : a.toNat / 4 ≤ 15 ∨ (21 ≤ a.toNat / 4 ∧ a.toNat / 4 ≤ 23) ∨ 27 ≤ a.toNat / 4) : hostReg a = .reserved := by
  rcases hostReg_index a with hr | hr
  · exact hr
  · have hlt := a.isLt
    rw [← hr] at h14 h
    cases hreg : hostReg a <;> simp only [hreg, regIndex] at * <;> omega

/-- Settles O43: each register packs its fields at their places, and an offset of no register reads 0. -/
theorem resultRegistersRead : Obligations.ResultRegistersRead := by
  intro s
  have hwide : ∀ {n : Nat} (x : BitVec n), n ≤ 32 → (x.setWidth 32).toNat = x.toNat := fun _ h =>
    BitVec.toNat_setWidth_of_le h
  refine ⟨hwide s.lastOp (by decide), ?irqEn, hwide s.cfg.dest (by decide), hwide s.cfg.arg (by decide), ?bcmd,
    hwide s.res.val (by decide), ?fw, hwide s.res.fwid (by decide), ?pm, ?txbuf4, ?rxbuf2, ?unlisted⟩
  case irqEn => exact (hwide (BitVec.ofBool s.cfg.doneIe) (by decide)).trans (BitVec.toNat_ofBool _)
  case bcmd =>
    show (0#20 ++ s.cfg.plen ++ s.cfg.cmd : BitVec 32).toNat = _
    rw [append_toNat, append_toNat, BitVec.toNat_ofNat]
    omega
  case fw =>
    show (packWord s.res.year s.res.month s.res.day 0).toNat = _
    simp [packWord_toNat]
  case pm =>
    show (s.res.pm10 ++ s.res.pm25 : BitVec 32).toNat = _
    rw [append_toNat]
    omega
  case txbuf4 => exact (wordByte_bufferWord s.txbuf.toList 4 3 (by decide)).trans (by simp)
  case rxbuf2 =>
    show (bufferWord s.rxbuf.toList 2).extractLsb' 16 16 = 0
    rw [bufferWord_rxbuf_two, packWord_upper_zero]
  case unlisted =>
    intro a h14 h
    rw [readReg, hostReg_unlisted h14 h]
    rfl

/-- After reset DEST holds BROADCAST and every other register 0 (R232). -/
theorem readHostReg_reset (r : HostReg) : readHostReg r State.reset = if r = .dest then 0x0000FFFF else 0 := by
  cases r with
  | payload j | txbuf j | rxbuf j => revert j; decide
  | _ => rfl

theorem hostReg_eq_dest_iff (a : BitVec 8) : hostReg a = .dest ↔ a.toNat / 4 = 3 := by
  constructor
  · intro h
    exact index_of_hostReg_eq (b := 0x0C) h (by simp [h])
  · exact hostReg_eq_of_index (b := 0x0C)

/-- Settles O50: each register's reset value. -/
theorem resetRegisterValues : Obligations.ResetRegisterValues := by
  intro a
  simp only [readReg, readHostReg_reset, hostReg_eq_dest_iff]

/-! ### A placed operation (R30, R90) -/

/-- The op code of a row's word that decodes to an operation (R90). -/
theorem tableByte_of_decodeTableWord {n w : Nat} {i : Instr} (h : decodeTableWord n w = some i) :
    tableByte n w = opCode i := by
  unfold decodeTableWord decode at h
  cases hd : decodeOp (tableByte n w) with
  | error e => simp [hd, Except.map] at h
  | ok j =>
    obtain rfl : j = i := by simpa [hd, Except.map] using h
    exact (opCode_of_decodeOp hd).symm

/-- Settles O47: the placed byte is the operation's op code, and the quiet cycle listed with it is its DISPATCH step. -/
theorem placedOperationRuns : Obligations.PlacedOperationRuns := by
  intro s w i h
  have hop := tableByte_of_decodeTableWord h
  have henv : (s.withFetchWord 8 w).env = .cycle fetchCycle :: s.env := rfl
  rw [step_without_access (nextInputs_cycle henv) rfl rfl rfl rfl rfl]
  simp [State.withFetchWord, placeOperation, hop, engineCycle, runningOp, startOperation, flagsOnStart, captureOperands,
    fetchCycle, quietCycle]

/-! ### The host's operand registers and a running operation (R42, R242) -/

/-- The state with other contents of IRQ_EN, DEST, ARG, BCMD and PAYLOAD. -/
def withCfg (c : HostConfig) (s : State) : State := { s with cfg := c }

section
variable (c : HostConfig) (s : State)

theorem startTransmit_withCfg : startTransmit (withCfg c s) = withCfg c (startTransmit s) := by
  simp only [startTransmit, apply_ite (withCfg c)]
  rfl

theorem transact_withCfg (cmd : Byte) (p : List Byte) : transact cmd p (withCfg c s) = withCfg c (transact cmd p s) :=
  startTransmit_withCfg c (loadFrame cmd p s)

theorem startOf_withCfg (i : Instr) : startOf i (withCfg c s) = withCfg c (startOf i s) := by
  cases i
  case build | setWorkingPeriod | send =>
    simp only [startOf, startSetWorkingPeriod, apply_ite (withCfg c), ← startTransmit_withCfg, ← transact_withCfg]
    rfl
  case receive => rfl
  all_goals exact transact_withCfg c s _ _

theorem afterWrite_withCfg (i : Instr) : afterWrite i (withCfg c s) = withCfg c (afterWrite i s) := by
  cases i <;> rfl

theorem transmitCycle_withCfg (i : Instr) (k : Fin 19) :
    transmitCycle (afterWrite i) k (withCfg c s) = withCfg c (transmitCycle (afterWrite i) k s) := by
  simp only [transmitCycle, apply_ite (withCfg c), apply_dite (withCfg c), ← afterWrite_withCfg]
  rfl

theorem windowWaits_withCfg (e : ResultCode) : windowWaits e (withCfg c s) = withCfg c (windowWaits e s) := by
  simp only [windowWaits, apply_ite (withCfg c)]
  rfl

theorem syncCycle_withCfg : syncCycle (withCfg c s) = withCfg c (syncCycle s) := by
  have hoff : (withCfg c s).rxOffered = s.rxOffered := rfl
  cases ho : s.rxOffered
  · simp only [syncCycle, hoff, ho]
    exact windowWaits_withCfg c (tickWindow s) .timeout
  · simp only [syncCycle, hoff, ho, syncByte, apply_ite (withCfg c)]
    rfl

theorem onValidOf_withCfg (i : Instr) : onValidOf i (withCfg c s) = withCfg c (onValidOf i s) := by
  cases i <;>
    simp only [onValidOf, decodeGetSleep, decodeGetMode, decodeQueryDust, decodeGetWorkingPeriod, apply_ite (withCfg c)] <;>
    rfl

theorem bodyCycle_withCfg (i : Instr) (k : Fin 9) :
    bodyCycle (onValidOf i) k (withCfg c s) = withCfg c (bodyCycle (onValidOf i) k s) := by
  have hoff : (withCfg c s).rxOffered = s.rxOffered := rfl
  cases ho : s.rxOffered
  · simp only [bodyCycle, hoff, ho]
    exact windowWaits_withCfg c (tickWindow s) .bodyIncomplete
  · simp only [bodyCycle, hoff, ho, validate, apply_ite (withCfg c), apply_dite (withCfg c), ← onValidOf_withCfg]
    rfl

end

/-- Settles O55: the part of the operation that each phase runs reads the latched operands and never the host's registers. -/
theorem operandWritesDoNotReachRunningOp : Obligations.OperandWritesDoNotReachRunningOp := by
  intro i s t c h
  show exec i (withCfg c s) = .next (withCfg c t)
  rcases exec_next_cases h with ⟨hp, rfl⟩ | ⟨k, hp, ht, rfl⟩ | ⟨hp, hr, rfl⟩ | ⟨k, hp, hr, rfl⟩
  · rw [exec_dispatch (s := withCfg c s) hp, startOf_withCfg]
  · rw [exec_tx (s := withCfg c s) ht hp, transmitCycle_withCfg]
  · rw [exec_sync (s := withCfg c s) hr hp, syncCycle_withCfg]
  · rw [exec_body (s := withCfg c s) hr hp, bodyCycle_withCfg]

/-! ### The transfers of a cycle (R23, R24) -/

/-- A host access transfers no byte of either stream. -/
theorem hostAccess_streams (s : State) :
    (hostAccess s).txStream = s.txStream ∧ (hostAccess s).rxStream = s.rxStream := by
  unfold hostAccess
  split
  · rcases writeHostReg_cases (hostReg s.pins.busAddr) s.pins.busWdata s with ⟨c, e⟩ | ⟨-, e⟩ | ⟨-, -, e⟩ | ⟨-, -, e⟩ <;>
      rw [writeReg, e] <;> exact ⟨rfl, rfl⟩
  · exact ⟨rfl, rfl⟩

/-- The streams `tx` and `rx` after the transfers that the ports of `s` make in its cycle: `tx_data` goes out when `tx_valid`
and `tx_ready` are 1 (R23), and the front byte comes in when `rx_ready` is 1 and the channel offers it (R24). -/
def transferred (s : State) : List Byte × List Byte :=
  (s.txStream ++ (if s.txValid = true ∧ s.pins.txReady = true then [s.txData] else []),
    if s.rxReady = true ∧ s.pins.rxOffer = true then s.rxStream.tail else s.rxStream)

theorem transferred_of_levels_zero {s : State} (htx : s.txValid = false) (hrx : s.rxReady = false) :
    transferred s = (s.txStream, s.rxStream) := by
  simp [transferred, htx, hrx]

/-- The engine's cycle moves the bytes that the ports say. -/
theorem engineCycle_streams {s t : State} (hl : s.pins.rstN = true) (h : engineCycle s = .next t) :
    (t.txStream, t.rxStream) = transferred s := by
  rcases engineCycle_next_cases h with ⟨i, -, hx⟩ | ⟨-, hp, rfl⟩
  · obtain ⟨hout, htx, hrx⟩ := exec_streams hx
    cases hin : s.inTx
    · simp [transferred, State.txValid, State.rxReady, hl, hin, hout hin, hrx]
    · obtain ⟨k, hp⟩ := State.inTx_iff.1 hin
      simp [transferred, State.txValid, State.rxReady, State.txData, hl, hin, hp, htx k hp, hrx]
  · rw [transferred_of_levels_zero] <;> simp [State.txValid, State.rxReady, State.inTx, State.inWindow, hp]

/-- Outside a TX, SYNC or BODY phase the ports offer and take nothing (R40). -/
theorem levels_zero_of_inactive {s : State} (h : engineActive s = false) : s.txValid = false ∧ s.rxReady = false := by
  cases hp : s.phase <;> simp_all [engineActive, State.txValid, State.rxReady, State.inTx, State.inWindow]

/-- A cycle moves the bytes that the ports say, whatever the host accesses in it. -/
theorem step_streams {s t : State} (h : Inv s) (hs : step s = .next t) :
    (t.txStream, t.rxStream) = transferred (nextInputs s) := by
  rcases step_next_cases hs with ⟨hr, rfl⟩ | ⟨-, ha, rfl⟩ | ⟨hl, ha, u, hu, rfl⟩
  · rw [transferred_of_levels_zero] <;> simp [State.txValid, State.rxReady, hr, resetCycle]
  · obtain ⟨htx, hrx⟩ := levels_zero_of_inactive ha
    rw [transferred_of_levels_zero htx hrx]
    simp [hostAccess_streams]
  · have hb : (nextInputs s).busy = true := by
      refine (nextInputs_inv h hl).busyIff.2 fun hp => ?_
      simp [engineActive, hp] at ha
    obtain ⟨d, k, c, r, hacc, -⟩ := hostAccess_busy hb
    rw [hacc] at hu
    have hmoved := engineCycle_streams (by exact hl) hu
    exact hmoved

/-- Settles O60: the levels are those of the phase the cycle finds, and the cycle moves the bytes that the ports say. -/
theorem outputPortsAndTransfers : Obligations.OutputPortsAndTransfers := by
  intro s t c rest h he hs
  have hstreams := step_streams h hs
  rw [nextInputs_cycle he] at hstreams ⊢
  obtain ⟨htx, hrx⟩ := Prod.mk.inj hstreams
  refine ⟨fun hr => ?_, fun hr => ⟨?_, fun i hp => ?_, ?_, ?_⟩, htx, hrx⟩
  · simp [State.txValid, State.rxReady, State.irq, hr]
  · simp [State.irq, hr]
  · simp [State.txValid, State.txData, State.rxReady, State.inTx, State.inWindow, hr, hp]
  · rintro (hp | ⟨k, hp⟩) <;> simp [State.txValid, State.rxReady, State.inTx, State.inWindow, hr, hp]
  · rintro (hp | hp) <;> simp [State.txValid, State.rxReady, State.inTx, State.inWindow, hr, hp]

/-! ### The frame of the operations (R42 to R46) -/

/-- The state with another frame in TXBUF and another TXV. -/
def withFrame (tb : CommandFrame) (tv : Bool) (s : State) : State := { s with txbuf := tb, txv := tv }

/-- A DISPATCH step opens the receive phase, or it offers TXBUF[0] or finishes, and then only TXBUF and TXV may be new. -/
theorem startOf_cases (i : Instr) (s : State) :
    startOf i s = beginReceive s ∨
    ∃ tb tv, startOf i s = { withFrame tb tv s with phase := .tx 0 } ∨ ∃ c, startOf i s = finish c (withFrame tb tv s) := by
  have htransmit : ∀ tb tv, startTransmit (withFrame tb tv s) = { withFrame tb tv s with phase := .tx 0 } ∨
      ∃ c, startTransmit (withFrame tb tv s) = finish c (withFrame tb tv s) := fun tb tv => by
    unfold startTransmit
    split
    · exact .inl rfl
    · exact .inr ⟨_, rfl⟩
  have htransact : ∀ cmd p, ∃ tb tv, transact cmd p s = { withFrame tb tv s with phase := .tx 0 } ∨
      ∃ c, transact cmd p s = finish c (withFrame tb tv s) := fun cmd p => ⟨_, _, htransmit (frame cmd p s.latch.dest) true⟩
  cases i
  case receive => exact .inl rfl
  case build =>
    simp only [startOf]
    split
    · exact .inr ⟨s.txbuf, false, .inr ⟨_, rfl⟩⟩
    · exact .inr ⟨_, true, .inr ⟨_, rfl⟩⟩
  case send =>
    simp only [startOf]
    split
    · exact .inr ⟨_, _, htransmit s.txbuf s.txv⟩
    · exact .inr ⟨s.txbuf, s.txv, .inr ⟨_, rfl⟩⟩
  case setWorkingPeriod =>
    simp only [startOf, startSetWorkingPeriod]
    split
    · exact .inr ⟨s.txbuf, s.txv, .inr ⟨_, rfl⟩⟩
    · exact .inr (htransact _ _)
  all_goals exact .inr (htransact _ _)

/-- A cycle in TX(k) stalls, or sends the byte and goes on, opens the receive phase, or finishes OK. -/
theorem transmitCycle_cases (i : Instr) (k : Fin 19) (s : State) :
    transmitCycle (afterWrite i) k s = s ∨
    (∃ k', transmitCycle (afterWrite i) k s = { sendByte k s with phase := .tx k' }) ∨
    transmitCycle (afterWrite i) k s = beginReceive (sendByte k s) ∨
    transmitCycle (afterWrite i) k s = finish .ok (sendByte k s) := by
  unfold transmitCycle afterWrite
  split
  · split
    · exact .inr (.inl ⟨_, rfl⟩)
    · split
      · exact .inr (.inr (.inl rfl))
      · exact .inr (.inr (.inr rfl))
  · exact .inl rfl

/-- The state with another RX stream, timer, RXBUF and counters. -/
def withReceived (rx : List Byte) (w : Nat) (rb : ResponseFrame) (n : BitVec 4) (d : BitVec 5) (s : State) : State :=
  { s with rxStream := rx, wtimer := w, rxbuf := rb, rxcount := n, discards := d }

/-- What the result registers `r` may become in a cycle of `i`: only its own may change (R39). -/
def OwnResultsOnly (i : Instr) (r r' : Results) : Prop :=
  (i ∉ [Instr.getSleep, .getMode, .getWorkingPeriod] → r'.val = r.val) ∧
  (i ≠ .firmwareVersion → r'.year = r.year ∧ r'.month = r.month ∧ r'.day = r.day ∧ r'.fwid = r.fwid) ∧
  (i ≠ .queryDust → r'.pm25 = r.pm25 ∧ r'.pm10 = r.pm10)

theorem OwnResultsOnly.refl (i : Instr) (r : Results) : OwnResultsOnly i r r := by simp [OwnResultsOnly]

theorem onValidOf_ownResultsOnly (i : Instr) (s : State) : OwnResultsOnly i s.res (onValidOf i s).res := by
  cases i <;>
    simp only [onValidOf, decodeGetSleep, decodeSetSleep, decodeGetMode, decodeSetMode, decodeFirmwareVersion,
      decodeQueryDust, decodeSetId, decodeSetWorkingPeriod, decodeGetWorkingPeriod, finishEcho] <;>
    (repeat' split) <;>
    simp [OwnResultsOnly]

/-- How a cycle of an open window ends: the operation goes on, or it finishes, with new results only on OK and only its own
(R45); it has changed nothing else but the RX stream, the timer, RXBUF and the counters. -/
def WindowCycleEnds (i : Instr) (s t : State) : Prop :=
  ∃ rx w rb n d, (∃ p, p ≠ .idle ∧ t = { withReceived rx w rb n d s with phase := p }) ∨
    ∃ c r, t = finish c { withReceived rx w rb n d s with res := r } ∧ (c ≠ .ok → r = s.res) ∧ OwnResultsOnly i s.res r

theorem WindowCycleEnds.finish (i : Instr) (c : ResultCode) {s : State} (rx : List Byte) (w : Nat) (rb : ResponseFrame)
    (n : BitVec 4) (d : BitVec 5) : WindowCycleEnds i s (Machine.finish c (withReceived rx w rb n d s)) :=
  ⟨rx, w, rb, n, d, .inr ⟨c, s.res, rfl, fun _ => rfl, .refl i _⟩⟩

theorem WindowCycleEnds.onValid (i : Instr) {s : State} (rx : List Byte) (w : Nat) (rb : ResponseFrame)
    (n : BitVec 4) (d : BitVec 5) : WindowCycleEnds i s (onValidOf i (withReceived rx w rb n d s)) := by
  obtain ⟨c, r, e, hr⟩ := onValidOf_finishes i (withReceived rx w rb n d s)
  have hown := onValidOf_ownResultsOnly i (withReceived rx w rb n d s)
  rw [e] at hown
  exact ⟨rx, w, rb, n, d, .inr ⟨c, r, e, hr, hown⟩⟩

theorem windowWaits_ends (i : Instr) (c : ResultCode) {s : State} (hp : s.phase ≠ .idle) :
    WindowCycleEnds i s (windowWaits c (tickWindow s)) := by
  unfold windowWaits
  split
  · exact .finish i c s.rxStream (s.wtimer - 1) s.rxbuf s.rxcount s.discards
  · exact ⟨s.rxStream, s.wtimer - 1, s.rxbuf, s.rxcount, s.discards, .inl ⟨s.phase, hp, rfl⟩⟩

theorem syncCycle_ends (i : Instr) {s : State} (hp : s.phase ≠ .idle) : WindowCycleEnds i s (syncCycle s) := by
  unfold syncCycle
  split
  · unfold syncByte
    split
    · exact ⟨s.rxStream.tail, s.rxTimeout, s.rxbuf.set 0 HEAD, 1, s.discards, .inl ⟨.body 0, by simp, rfl⟩⟩
    · split
      · exact .finish i .syncFail s.rxStream.tail (s.wtimer - 1) s.rxbuf s.rxcount (s.discards + 1)
      · exact ⟨s.rxStream.tail, s.rxTimeout, s.rxbuf, s.rxcount, s.discards + 1, .inl ⟨.sync, by simp, rfl⟩⟩
  · exact windowWaits_ends i _ hp

theorem bodyCycle_ends (i : Instr) (k : Fin 9) {s : State} (hp : s.phase ≠ .idle) :
    WindowCycleEnds i s (bodyCycle (onValidOf i) k s) := by
  unfold bodyCycle
  split
  · split
    · exact ⟨_, _, _, _, _, .inl ⟨.body _, by simp, rfl⟩⟩
    · unfold validate
      split
      · split
        · exact .onValid i _ _ _ _ _
        · exact .finish i _ _ _ _ _ _
      · exact .finish i _ _ _ _ _ _
  · exact windowWaits_ends i _ hp

section
variable {i : Instr} {s t : State}

/-- Everything that a cycle of an operation can make of the state, by its phase. -/
theorem exec_next_forms (h : exec i s = .next t) :
    (s.phase = .dispatch ∧ (t = beginReceive s ∨
      ∃ tb tv, t = { withFrame tb tv s with phase := .tx 0 } ∨ ∃ c, t = finish c (withFrame tb tv s))) ∨
    (∃ k, s.phase = .tx k ∧ (t = s ∨ (∃ k', t = { sendByte k s with phase := .tx k' }) ∨
      t = beginReceive (sendByte k s) ∨ t = finish .ok (sendByte k s))) ∨
    (s.inWindow = true ∧ WindowCycleEnds i s t) := by
  rcases exec_next_cases h with ⟨hp, rfl⟩ | ⟨k, hp, -, rfl⟩ | ⟨hp, -, rfl⟩ | ⟨k, hp, -, rfl⟩
  · exact .inl ⟨hp, startOf_cases i s⟩
  · exact .inr (.inl ⟨k, hp, transmitCycle_cases i k s⟩)
  · exact .inr (.inr ⟨State.inWindow_iff.2 (.inl hp), syncCycle_ends i (by simp [hp])⟩)
  · exact .inr (.inr ⟨State.inWindow_iff.2 (.inr ⟨k, hp⟩), bodyCycle_ends i k (by simp [hp])⟩)

theorem beginReceive_inWindow (s : State) : (beginReceive s).inWindow = true := rfl

/-- TXBUF and TXV change in DISPATCH only (R44); RXBUF, its counters and the timer in an open window or its opening only
(R43, R130). -/
theorem exec_buffers (h : exec i s = .next t) :
    t.txDataOff = s.txDataOff ∧ (s.phase ≠ .dispatch → t.txbuf = s.txbuf ∧ t.txv = s.txv) ∧
    (s.inWindow = false → t.inWindow = false →
      t.rxbuf = s.rxbuf ∧ t.rxcount = s.rxcount ∧ t.discards = s.discards ∧ t.wtimer = s.wtimer) := by
  rcases exec_next_forms h with ⟨hp, rfl | ⟨tb, tv, rfl | ⟨c, rfl⟩⟩⟩ | ⟨k, hp, rfl | ⟨k', rfl⟩ | rfl | rfl⟩ |
    ⟨hw, rx, w, rb, n, d, ⟨p, -, rfl⟩ | ⟨c, r, rfl, -⟩⟩
  all_goals simp [withFrame, withReceived, beginReceive_inWindow, *]

/-- Results change only at a finish with OK, and only the operation's own (R39, R45). -/
theorem exec_results (h : exec i s = .next t) :
    (t.code ≠ .ok ∨ t.phase ≠ .idle → t.res = s.res) ∧ OwnResultsOnly i s.res t.res := by
  rcases exec_next_forms h with ⟨hp, rfl | ⟨tb, tv, rfl | ⟨c, rfl⟩⟩⟩ | ⟨k, hp, rfl | ⟨k', rfl⟩ | rfl | rfl⟩ |
    ⟨hw, rx, w, rb, n, d, ⟨p, -, rfl⟩ | ⟨c, r, rfl, hr, hown⟩⟩
  case inr.inr.inr => exact ⟨by simpa using hr, hown⟩
  all_goals exact ⟨fun _ => rfl, .refl i _⟩

end

/-- GO, IRQ_EN, DEST, ARG, BCMD and PAYLOAD are read from LAST_OP and the host's registers alone. -/
theorem readReg_eq_of_cfg {s t : State} (hop : t.lastOp = s.lastOp) (hcfg : t.cfg = s.cfg) {a : BitVec 8}
    (ha : a.toNat / 4 = 0 ∨ (2 ≤ a.toNat / 4 ∧ a.toNat / 4 ≤ 8)) : readReg a t = readReg a s := by
  unfold readReg
  rcases hostReg_index a with hr | hr
  · rw [hr]
    rfl
  · rw [← hr] at ha
    generalize hostReg a = r at ha ⊢
    cases r
    case go | irqEn | dest | arg | bcmd | payload => simp only [readHostReg, hop, hcfg]
    all_goals
      simp only [regIndex] at ha
      omega

/-- Settles O56, by the form of the state that each phase's cycle leaves. -/
theorem operationFrame : Obligations.OperationFrame := by
  intro i s t h
  obtain ⟨hop, hcol, hcfg, hlatch, hpins, hrd, hto, henv, hcyc⟩ := exec_outside h
  obtain ⟨hoff, htxbuf, hrxbuf⟩ := exec_buffers h
  obtain ⟨htx, -, hrx⟩ := exec_streams h
  obtain ⟨hres, hval, hfw, hpm⟩ := exec_results h
  refine ⟨⟨hop, hcol, hcfg, hlatch, hpins, hrd, hoff, hto, henv, hcyc⟩, htxbuf, htx, fun hw => by simpa [hw] using hrx,
    hrxbuf, fun hp => ?_, hres, hval, hfw, hpm, fun a ha => readReg_eq_of_cfg hop hcfg ha⟩
  rcases exec_finishes_or_goes_on h with ⟨hidle, -⟩ | ⟨-, hflags⟩
  · exact absurd hidle hp
  · exact hflags

end Sys2Proof.Machine
end

section
/-! SUPPORT. The statements of 20_memory.md: what a host write touches, byte packing, and the host's access in a cycle. -/

namespace Sys2Proof.Machine

/-! ### What a host write touches (R39, R42, R65) -/

/-- A write of an operand register changes no state but the host's operand registers (R42, R242). -/
theorem writeHostReg_operand {r : HostReg} (h2 : 2 ≤ regIndex r) (h8 : regIndex r ≤ 8) (v : Word) (s : State) :
    { writeHostReg r v s with cfg := s.cfg } = s := by
  cases r
  case irqEn | dest | arg | bcmd | payload => rfl
  all_goals
    simp only [regIndex] at h2 h8
    omega

/-- A write of a read-only register, or of an offset that reaches no register, changes nothing (R39). -/
theorem writeHostReg_readOnly {r : HostReg} (h9 : 9 ≤ regIndex r) (v : Word) (s : State) : writeHostReg r v s = s := by
  cases r
  case rxinfo | resVal | fw | fwid | pm | txbuf | rxbuf | reserved => rfl
  all_goals
    simp only [regIndex] at h9
    omega

/-- A write at an offset that reaches no register changes nothing (R39). -/
theorem writeReg_reserved {a : BitVec 8} (h : hostReg a = .reserved) (v : Word) (s : State) : writeReg a v s = s := by
  rw [writeReg, h]
  rfl

/-- From index 2 on, a write leaves what every other index reads (R65). -/
theorem readReg_writeReg_ne {a b : BitVec 8} (h2 : 2 ≤ a.toNat / 4) (hne : a.toNat / 4 ≠ b.toNat / 4) (v : Word)
    (s : State) : readReg b (writeReg a v s) = readReg b s := by
  by_cases hr : hostReg a = .reserved
  · rw [writeReg_reserved hr]
  · have ha := (hostReg_index a).resolve_left hr
    refine readHostReg_writeHostReg_ne ?notGo ?notStatus (fun h => hne (index_of_hostReg_eq h hr)) v s
    all_goals
      intro h
      simp only [h, regIndex] at ha
      omega

/-- Settles O40: an offset reaches an operand register, or a register that ignores writes, according to its index. -/
theorem writesTouchOneRegister : Obligations.WritesTouchOneRegister := by
  refine ⟨fun s a b v h2 hne => readReg_writeReg_ne h2 hne v s, fun s a v h2 h8 => ?_, fun s a v h9 => ?_⟩
  · rcases hostReg_index a with ha | ha
    · rw [writeReg_reserved ha]
    · exact writeHostReg_operand (ha ▸ h2) (ha ▸ h8) v s
  · rcases hostReg_index a with ha | ha
    · rw [writeReg_reserved ha]
    · exact writeHostReg_readOnly (ha ▸ h9) v s

/-! ### Byte packing (R60) -/

/-- Byte `i` of word `j` of a buffer, for a byte the buffer has. -/
theorem wordByte_bufferWord_vector {n : Nat} (b : Vector Byte n) {j i : Nat} (hi : i < 4) (h : 4 * j + i < n) :
    wordByte (bufferWord b.toList j) i = b[4 * j + i] := by
  rw [wordByte_bufferWord _ _ _ hi]
  simp [h]

theorem readReg_payload {j : Nat} (hj : j < 3) (s : State) :
    readReg (BitVec.ofNat 8 (0x18 + 4 * j)) s = bufferWord s.cfg.payload.toList j := by
  interval_cases j <;> rfl

theorem readReg_txbuf {j : Nat} (hj : j < 5) (s : State) :
    readReg (BitVec.ofNat 8 (0x40 + 4 * j)) s = bufferWord s.txbuf.toList j := by
  interval_cases j <;> rfl

theorem readReg_rxbuf {j : Nat} (hj : j < 3) (s : State) :
    readReg (BitVec.ofNat 8 (0x60 + 4 * j)) s = bufferWord s.rxbuf.toList j := by
  interval_cases j <;> rfl

/-- Settles O41: each register of a buffer is a word of it, and a word packs its bytes from the least significant on. -/
theorem buffersPackLittleEndian : Obligations.BuffersPackLittleEndian := by
  intro s j i hi
  refine ⟨fun h => ?_, fun h => ?_, fun h => ?_⟩
  · rw [readReg_payload (by omega)]
    exact wordByte_bufferWord_vector s.cfg.payload hi h
  · rw [readReg_txbuf (by omega)]
    exact wordByte_bufferWord_vector s.txbuf hi h
  · rw [readReg_rxbuf (by omega)]
    exact wordByte_bufferWord_vector s.rxbuf hi h

/-! ### A read and the rest of its cycle (R63, R65) -/

/-- The state of the same cycle without the host's read: no read strobe and no read data. -/
def withoutRead (s : State) : State := { s with pins := { s.pins with busRe := false }, busRdata := none }

section
variable (s : State)

theorem startOf_withoutRead (i : Instr) : startOf i (withoutRead s) = withoutRead (startOf i s) := by
  cases i <;> simp only [startOf, startSetWorkingPeriod, transact, startTransmit, apply_ite withoutRead] <;> rfl

theorem transmitCycle_withoutRead (i : Instr) (k : Fin 19) :
    transmitCycle (afterWrite i) k (withoutRead s) = withoutRead (transmitCycle (afterWrite i) k s) := by
  have hafter : ∀ u, afterWrite i (withoutRead u) = withoutRead (afterWrite i u) := fun u => by cases i <;> rfl
  simp only [transmitCycle, apply_ite withoutRead, apply_dite withoutRead, ← hafter]
  rfl

theorem windowWaits_withoutRead (e : ResultCode) : windowWaits e (withoutRead s) = withoutRead (windowWaits e s) := by
  simp only [windowWaits, apply_ite withoutRead]
  rfl

theorem syncCycle_withoutRead : syncCycle (withoutRead s) = withoutRead (syncCycle s) := by
  have hoff : (withoutRead s).rxOffered = s.rxOffered := rfl
  cases ho : s.rxOffered
  · simp only [syncCycle, hoff, ho]
    exact windowWaits_withoutRead (tickWindow s) .timeout
  · simp only [syncCycle, hoff, ho, syncByte, apply_ite withoutRead]
    rfl

theorem onValidOf_withoutRead (i : Instr) : onValidOf i (withoutRead s) = withoutRead (onValidOf i s) := by
  cases i <;>
    simp only [onValidOf, decodeGetSleep, decodeGetMode, decodeQueryDust, decodeGetWorkingPeriod,
      apply_ite withoutRead] <;>
    rfl

theorem bodyCycle_withoutRead (i : Instr) (k : Fin 9) :
    bodyCycle (onValidOf i) k (withoutRead s) = withoutRead (bodyCycle (onValidOf i) k s) := by
  have hoff : (withoutRead s).rxOffered = s.rxOffered := rfl
  cases ho : s.rxOffered
  · simp only [bodyCycle, hoff, ho]
    exact windowWaits_withoutRead (tickWindow s) .bodyIncomplete
  · simp only [bodyCycle, hoff, ho, validate, apply_ite withoutRead, apply_dite withoutRead, ← onValidOf_withoutRead]
    rfl

/-- In a cycle with reset, too, a read reaches the strobe and its own data alone (R230). -/
theorem resetCycle_withoutRead : resetCycle (withoutRead s) = withoutRead (resetCycle s) := rfl

end

section
variable {s t : State}

/-- No operation's cycle sees the read strobe or the read data. -/
theorem exec_withoutRead {i : Instr} (h : exec i s = .next t) : exec i (withoutRead s) = .next (withoutRead t) := by
  rcases exec_next_cases h with ⟨hp, rfl⟩ | ⟨k, hp, ht, rfl⟩ | ⟨hp, hr, rfl⟩ | ⟨k, hp, hr, rfl⟩
  · rw [exec_dispatch (s := withoutRead s) hp, startOf_withoutRead]
  · rw [exec_tx (s := withoutRead s) ht hp, transmitCycle_withoutRead]
  · rw [exec_sync (s := withoutRead s) hr hp, syncCycle_withoutRead]
  · rw [exec_body (s := withoutRead s) hr hp, bodyCycle_withoutRead]

theorem engineCycle_withoutRead (h : engineCycle s = .next t) :
    engineCycle (withoutRead s) = .next (withoutRead t) := by
  have hop : runningOp (withoutRead s) = runningOp s := rfl
  rcases engineCycle_next_cases h with ⟨i, hi, hx⟩ | ⟨hn, hp, rfl⟩
  · simp only [engineCycle, hop, hi]
    exact exec_withoutRead hx
  · cases he : runningOp s with
    | ok i => exact absurd he (hn i)
    | error e =>
      have hp' : (withoutRead s).phase = .dispatch := hp
      simp only [engineCycle, hop, he, illegalOpCycle, hp']
      rfl

/-- In a cycle without a write the host's access leaves the read data and nothing else (R65). -/
theorem hostAccess_withoutRead (hw : s.pins.busWe = false) :
    hostAccess (withoutRead s) = withoutRead (hostAccess s) := by
  simp [hostAccess, hostRead, withoutRead, hw]

/-- The same cycle without its read, for a cycle without a write. -/
theorem step_withoutRead {u : State} (hu : nextInputs u = withoutRead (nextInputs s))
    (hw : (nextInputs s).pins.busWe = false) (h : step s = .next t) : step u = .next (withoutRead t) := by
  have hpin : (withoutRead (nextInputs s)).pins.rstN = (nextInputs s).pins.rstN := rfl
  have hact : engineActive (withoutRead (nextInputs s)) = engineActive (nextInputs s) := rfl
  rcases step_next_cases h with ⟨hr, rfl⟩ | ⟨hr, ha, rfl⟩ | ⟨hr, ha, v, hv, rfl⟩
  · simp [step, hu, hpin, hr, resetCycle_withoutRead]
  · simp only [step, hu, hpin, hact, hr, ha, hostAccess_withoutRead hw]
    rfl
  · simp only [step, hu, hpin, hact, hr, ha, hostAccess_withoutRead hw, engineCycle_withoutRead hv]
    rfl

end

/-- Settles O45: the cycle's read reaches the strobe and the read data alone, and no part of a cycle looks at them. -/
theorem readsHaveNoSideEffect : Obligations.ReadsHaveNoSideEffect := by
  intro s t c rest hw he h
  have hn := nextInputs_cycle he
  refine step_withoutRead ?_ (by rw [hn]; exact hw) h
  rw [hn]
  rfl

/-! ### The host's access in the cycle of a finish (R69, R207) -/

theorem hostAccess_busRdata (s : State) : (hostAccess s).busRdata = hostRead s := by
  unfold hostAccess
  split <;> rfl

/-- A GO write while an operation runs sets COLLIDE and starts nothing (R30). -/
theorem hostAccess_go_busy {s : State} (hb : s.busy = true) (hw : s.pins.busWe = true)
    (ha : s.pins.busAddr.toNat / 4 = 0) : (hostAccess s).collide = true ∧ (hostAccess s).lastOp = s.lastOp := by
  simp [hostAccess, hw, writeReg_go ha, writeGo, hb]

/-- The ports, the RX stream, the inputs to come and the read data are in no host register. -/
theorem readReg_nextInputs_cycle {s : State} {c : CycleIn} {rest : List EnvStep} (he : s.env = .cycle c :: rest)
    (a : BitVec 8) : readReg a (nextInputs s) = readReg a s := by
  rw [nextInputs_cycle he]
  rfl

/-- A read of STATUS has BUSY in bit 0 (R29). -/
theorem readReg_status_busy {a : BitVec 8} (ha : a.toNat / 4 = 1) (s : State) : (readReg a s).getLsbD 0 = s.busy := by
  rw [readReg, hostReg_eq_of_index (b := 0x04) ha]
  exact (BitVec.getLsbD_append (y := BitVec.ofBool s.busy)).trans (by simp)

section
variable {s t : State}

/-- The engine's cycle writes none of LAST_OP, COLLIDE and the read data. -/
theorem engineCycle_outside (h : engineCycle s = .next t) :
    t.lastOp = s.lastOp ∧ t.collide = s.collide ∧ t.busRdata = s.busRdata := by
  rcases engineCycle_next_cases h with ⟨i, -, hx⟩ | ⟨-, -, rfl⟩
  · obtain ⟨hop, hcol, -, -, -, hrd, -⟩ := exec_outside hx
    exact ⟨hop, hcol, hrd⟩
  · exact ⟨rfl, rfl, rfl⟩

/-- An engine cycle that leaves the block idle has finished the operation (R205). -/
theorem engineCycle_done (h : engineCycle s = .next t) (hp : t.phase = .idle) : t.done = true := by
  rcases engineCycle_next_cases h with ⟨i, -, hx⟩ | ⟨-, -, rfl⟩
  · rcases exec_finishes_or_goes_on hx with ⟨-, -, hd⟩ | ⟨hn, -⟩
    · exact hd
    · exact absurd hp hn
  · rfl

/-- A running block that a cycle without reset leaves idle has taken an engine step after the host's access (R69). -/
theorem step_to_idle (hb : (nextInputs s).busy = true) (hp : (nextInputs s).phase ≠ .idle)
    (hr : (nextInputs s).pins.rstN = true) (h : step s = .next t) (ht : t.phase = .idle) :
    ∃ u, engineCycle (hostAccess (nextInputs s)) = .next u ∧ t = endCycle u := by
  rcases step_next_cases h with ⟨hl, -⟩ | ⟨-, -, rfl⟩ | ⟨-, -, hu⟩
  · simp [hr] at hl
  · obtain ⟨d, k, c, r, hacc, -⟩ := hostAccess_busy hb
    rw [hacc] at ht
    exact absurd ht hp
  · exact hu

end

/-- Settles O52: the finish is the engine's, on the state that the host's access has left; it sets DONE itself, and it leaves
the read data, COLLIDE and LAST_OP as the access made them. -/
theorem hostActsBeforeFinish : Obligations.HostActsBeforeFinish := by
  intro s t c rest h hp he hr hs ht
  have hinv : Inv t := stepKeepsInv s t h hs
  have hbusy : s.busy = true := h.busyIff.2 hp
  have hn := nextInputs_cycle he
  obtain ⟨u, hu, rfl⟩ := step_to_idle (by rw [hn]; exact hbusy) (by rw [hn]; exact hp) (by rw [hn]; exact hr) hs ht
  obtain ⟨hop, hcol, hrd⟩ := engineCycle_outside hu
  have hdone : (endCycle u).done = true := engineCycle_done (t := u) hu ht
  have hread : c.busRe = true → c.busWe = false → (endCycle u).busRdata = some (readReg c.busAddr s) := fun hre hwe => by
    have hpins : (nextInputs s).pins = c := by rw [hn]
    rw [endCycle_busRdata, hrd, hostAccess_busRdata]
    simp [hostRead, hpins, hre, hwe, readReg_nextInputs_cycle he]
  refine ⟨hdone, ?notBusy, hinv.doneCode hdone, hread, fun hre hwe ha => ⟨_, hread hre hwe, ?status⟩, fun hwe ha => ?go⟩
  case notBusy =>
    by_contra hb
    exact hinv.busyIff.1 (by simpa using hb) ht
  case status => rw [readReg_status_busy ha, hbusy]
  case go =>
    obtain ⟨hset, hkept⟩ := hostAccess_go_busy (s := nextInputs s) (by rw [hn]; exact hbusy) (by rw [hn]; exact hwe)
      (by rw [hn]; exact ha)
    exact ⟨hcol.trans hset, hop.trans (hkept.trans (by rw [hn]))⟩

end Sys2Proof.Machine
end

section
/-! SUPPORT. The statements of 30_encoding.md: op codes, command frames read back, and the step of the decoded operation. -/

namespace Sys2Proof

/-! ### Op codes (R88, R90, R92) -/

theorem decodeOp_eq_ok_iff {op : Byte} {i : Instr} : decodeOp op = .ok i ↔ opCode i = op :=
  ⟨opCode_of_decodeOp, fun h => h ▸ decodeOp_opCode i⟩

/-- A byte followed by others decodes as the byte does. -/
theorem decode_cons_eq_ok_iff {op : Byte} {rest : List Byte} {i : Instr} :
    decode (op :: rest) = .ok (i, rest) ↔ decodeOp op = .ok i := by
  cases hd : decodeOp op <;> simp [decode, hd, Except.map]

/-- The op code of a row's word is the word's low byte (R28, R90). -/
theorem tableByte_opCode (i : Instr) : tableByte 8 (opCode i).toNat = opCode i := by cases i <;> rfl

theorem decodeTableWord_opCode (i : Instr) : decodeTableWord 8 (opCode i).toNat = some i := by
  rw [decodeTableWord, tableByte_opCode, decode_cons_eq_ok_iff.2 (decodeOp_opCode i)]

/-- Settles O1: each word is its operation's op code. -/
theorem opCodeWordsDecode : Obligations.OpCodeWordsDecode :=
  ⟨decodeTableWord_opCode .build, decodeTableWord_opCode .send, decodeTableWord_opCode .receive,
    decodeTableWord_opCode .getSleep, decodeTableWord_opCode .setSleep, decodeTableWord_opCode .getMode,
    decodeTableWord_opCode .setMode, decodeTableWord_opCode .firmwareVersion, decodeTableWord_opCode .queryDust,
    decodeTableWord_opCode .setId, decodeTableWord_opCode .setWorkingPeriod, decodeTableWord_opCode .getWorkingPeriod⟩

/-- The op codes are 0x01 to 0x03 and 0x10 to 0x18 (R90). -/
theorem exists_opCode_eq_iff (op : Byte) :
    (∃ i, opCode i = op) ↔ (1 ≤ op.toNat ∧ op.toNat ≤ 0x03) ∨ (0x10 ≤ op.toNat ∧ op.toNat ≤ 0x18) := by
  constructor
  · rintro ⟨i, rfl⟩
    cases i <;> decide
  · intro h
    have hok : ∀ op : Byte, (1 ≤ op.toNat ∧ op.toNat ≤ 0x03) ∨ (0x10 ≤ op.toNat ∧ op.toNat ≤ 0x18) →
        (decodeOp op).isOk = true := by decide
    cases hd : decodeOp op with
    | ok i => exact ⟨i, opCode_of_decodeOp hd⟩
    | error e => simpa [hd, Except.isOk, Except.toBool] using hok op h

/-- Settles O2: the bytes that are no op code are those outside the two ranges of op codes. -/
theorem illegalOpCodesAreThese : Obligations.IllegalOpCodesAreThese := by
  intro op
  simp only [ne_eq, decodeOp_eq_ok_iff, ← not_exists, exists_opCode_eq_iff]
  omega

/-- Settles O3: decoding and the op code are inverse to each other, and GO's low byte is the appended one. -/
theorem operationBytesRoundTrip : Obligations.OperationBytesRoundTrip :=
  ⟨fun i _ => decode_cons_eq_ok_iff.2 (decodeOp_opCode i),
    fun _ _ h => congrArg (fun b => [b]) (opCode_of_decodeOp h).symm,
    fun _ _ => BitVec.extractLsb'_append_eq_right⟩

/-! ### A frame by its bytes (R80, R110, R114) -/

/-- The payload bytes T[3..14] of a frame are `p`, then zero bytes (R111). -/
def HoldsPayload (t : CommandFrame) (p : List Byte) : Prop := ∀ (j : Nat) (hj : j < 12), t[3 + j] = p.getD j 0

theorem holdsPayload_iff (t : CommandFrame) (p : List Byte) : HoldsPayload t p ↔
    t[3] = p.getD 0 0 ∧ t[4] = p.getD 1 0 ∧ t[5] = p.getD 2 0 ∧ t[6] = p.getD 3 0 ∧ t[7] = p.getD 4 0 ∧
      t[8] = p.getD 5 0 ∧ t[9] = p.getD 6 0 ∧ t[10] = p.getD 7 0 ∧ t[11] = p.getD 8 0 ∧ t[12] = p.getD 9 0 ∧
      t[13] = p.getD 10 0 ∧ t[14] = p.getD 11 0 := by
  constructor
  · intro h
    exact ⟨h 0 (by decide), h 1 (by decide), h 2 (by decide), h 3 (by decide), h 4 (by decide), h 5 (by decide),
      h 6 (by decide), h 7 (by decide), h 8 (by decide), h 9 (by decide), h 10 (by decide), h 11 (by decide)⟩
  · rintro ⟨h0, h1, h2, h3, h4, h5, h6, h7, h8, h9, h10, h11⟩ j hj
    interval_cases j <;> assumption

/-- The checksum of a frame looks at no byte after T[16] (R114). -/
theorem commandChecksum_congr {t u : CommandFrame} (h : ∀ (j : Nat) (hj : j < 17), t[j] = u[j]) :
    commandChecksum t = commandChecksum u := by
  have hl : (t.toList.drop 2).take 15 = (u.toList.drop 2).take 15 := by
    apply List.ext_getElem
    · simp
    · intro n hn _
      have hn' : n < 15 := by simpa using hn
      simpa using h (2 + n) (by omega)
  rw [commandChecksum, commandChecksum, hl]

/-- A frame of the build step, byte by byte. -/
theorem frame_eq_iff {t : CommandFrame} {cmd : Byte} {p : List Byte} {dest : Half} :
    frame cmd p dest = t ↔
      t[0] = HEAD ∧ t[1] = CMD_ID ∧ t[2] = cmd ∧ HoldsPayload t p ∧ t[15] = hiByte dest ∧ t[16] = loByte dest ∧
        t[17] = commandChecksum t ∧ t[18] = TAIL := by
  constructor
  · rintro rfl
    exact ⟨rfl, rfl, rfl, frame_payload cmd p dest, rfl, rfl, (commandChecksum_frame cmd p dest).symm, rfl⟩
  · rintro ⟨h0, h1, h2, hp, h15, h16, h17, h18⟩
    have hbytes : ∀ (j : Nat) (hj : j < 17), (frame cmd p dest)[j] = t[j] := by
      intro j hj
      obtain hlo | ⟨k, hk, rfl⟩ | hhi : j < 3 ∨ (∃ k < 12, j = 3 + k) ∨ 15 ≤ j := by
        by_cases h : 3 ≤ j ∧ j < 15
        · exact .inr (.inl ⟨j - 3, by omega, by omega⟩)
        · omega
      · interval_cases j
        · exact h0.symm
        · exact h1.symm
        · exact h2.symm
      · rw [frame_payload cmd p dest k hk, hp k hk]
      · interval_cases j
        · exact h15.symm
        · exact h16.symm
    apply Vector.ext
    intro j hj
    obtain hlt | rfl | rfl : j < 17 ∨ j = 17 ∨ j = 18 := by omega
    · exact hbytes j hlt
    · rw [← commandChecksum_frame, h17, commandChecksum_congr hbytes]
    · exact h18.symm

/-! ### The rows of R87 -/

section
variable {t : CommandFrame}

theorem holdsPayload_nil : HoldsPayload t [] ↔ zeroBytes t 3 12 = true := by
  simp [holdsPayload_iff, zeroBytes, commandFrame_toList]

theorem holdsPayload_one {a : Byte} : HoldsPayload t [a] ↔ t[3] = a ∧ zeroBytes t 4 11 = true := by
  simp [holdsPayload_iff, zeroBytes, commandFrame_toList]

theorem holdsPayload_two {a b : Byte} : HoldsPayload t [a, b] ↔ t[3] = a ∧ t[4] = b ∧ zeroBytes t 5 10 = true := by
  simp [holdsPayload_iff, zeroBytes, commandFrame_toList]

/-- A zero byte at the end of a payload is padding. -/
theorem holdsPayload_zero_padded {a : Byte} : HoldsPayload t [a, 0] ↔ HoldsPayload t [a] := by
  simp [holdsPayload_iff]

/-- SET_ID's payload: the id in the last two bytes (R86). -/
theorem holdsPayload_id {h l : Byte} : HoldsPayload t [0, 0, 0, 0, 0, 0, 0, 0, 0, 0, h, l] ↔
    zeroBytes t 3 10 = true ∧ t[13] = h ∧ t[14] = l := by
  simp [holdsPayload_iff, zeroBytes, commandFrame_toList, and_assoc]

/-- A row of R87 that matches is the row of R86 of the command it names. -/
theorem identify_sound {c : WireCommand} (h : identify t = some c) :
    c.wf = true ∧ t[2] = commandCode c ∧ HoldsPayload t (commandPayload c) := by
  unfold identify at h
  split_ifs at h with hgetSleep hsetSleep hgetMode hsetMode hfirmware hdust hsetId hsetPeriod hgetPeriod <;> cases h
  · obtain ⟨hcode, h3, hz⟩ := hgetSleep
    exact ⟨rfl, hcode, holdsPayload_zero_padded.2 (holdsPayload_one.2 ⟨h3, hz⟩)⟩
  · obtain ⟨hcode, h3, hval, hz⟩ := hsetSleep
    refine ⟨rfl, hcode, holdsPayload_two.2 ⟨h3, ?_, hz⟩⟩
    rcases hval with h4 | h4 <;> simp [h4]
  · obtain ⟨hcode, h3, hz⟩ := hgetMode
    exact ⟨rfl, hcode, holdsPayload_zero_padded.2 (holdsPayload_one.2 ⟨h3, hz⟩)⟩
  · obtain ⟨hcode, h3, hz⟩ := hsetMode
    exact ⟨rfl, hcode, holdsPayload_two.2 ⟨h3, rfl, hz⟩⟩
  · obtain ⟨hcode, hz⟩ := hfirmware
    exact ⟨rfl, hcode, holdsPayload_nil.2 hz⟩
  · obtain ⟨hcode, hz⟩ := hdust
    exact ⟨rfl, hcode, holdsPayload_nil.2 hz⟩
  · obtain ⟨hcode, hz⟩ := hsetId
    exact ⟨rfl, hcode, holdsPayload_id.2 ⟨hz, (hiByte_u16be _ _).symm, (loByte_u16be _ _).symm⟩⟩
  · obtain ⟨hcode, h3, hle, hz⟩ := hsetPeriod
    exact ⟨decide_eq_true hle, hcode, holdsPayload_two.2 ⟨h3, rfl, hz⟩⟩
  · obtain ⟨hcode, h3, hz⟩ := hgetPeriod
    exact ⟨rfl, hcode, holdsPayload_one.2 ⟨h3, hz⟩⟩

/-- The command code and the payload of a well-formed command pick its row of R87, and no row before it. -/
theorem identify_complete {c : WireCommand} (hwf : c.wf = true) (hcode : t[2] = commandCode c)
    (hp : HoldsPayload t (commandPayload c)) : identify t = some c := by
  cases c <;> simp only [commandCode, commandPayload] at hcode hp
  case getSleep | getMode =>
    obtain ⟨h3, hz⟩ := holdsPayload_one.1 (holdsPayload_zero_padded.1 hp)
    simp [identify, hcode, h3, hz]
  case getWorkingPeriod =>
    obtain ⟨h3, hz⟩ := holdsPayload_one.1 hp
    simp [identify, hcode, h3, hz]
  case setSleep sleep =>
    obtain ⟨h3, h4, hz⟩ := holdsPayload_two.1 hp
    cases sleep <;> simp_all [identify]
  case setMode mode =>
    obtain ⟨h3, h4, hz⟩ := holdsPayload_two.1 hp
    simp [identify, hcode, h3, h4, hz]
  case firmwareVersion | queryDust =>
    simp [identify, hcode, holdsPayload_nil.1 hp]
  case setId newId =>
    obtain ⟨hz, h13, h14⟩ := holdsPayload_id.1 hp
    simp [identify, hcode, hz, h13, h14, u16be_hiByte_loByte]
  case setWorkingPeriod period =>
    obtain ⟨h3, h4, hz⟩ := holdsPayload_two.1 hp
    have hle : period.toNat ≤ 30 := of_decide_eq_true hwf
    simp [identify, hcode, h3, h4, hz, hle]

end

theorem identify_eq_some_iff {t : CommandFrame} {c : WireCommand} : identify t = some c ↔
    c.wf = true ∧ t[2] = commandCode c ∧ HoldsPayload t (commandPayload c) :=
  ⟨identify_sound, fun ⟨hwf, hcode, hp⟩ => identify_complete hwf hcode hp⟩

/-! ### Reading a command frame (R80, R87) -/

theorem u16be_eq_iff {h l : Byte} {d : Half} : u16be h l = d ↔ h = hiByte d ∧ l = loByte d := by
  constructor
  · rintro rfl
    exact ⟨(hiByte_u16be h l).symm, (loByte_u16be h l).symm⟩
  · rintro ⟨rfl, rfl⟩
    exact u16be_hiByte_loByte d

/-- What the reader asks of a frame: its constants, its checksum, a row of R87 and the destination (log entry 16). -/
theorem parseCommand_eq_ok_iff {t : CommandFrame} {c : WireCommand} {dest : Half} :
    parseCommand t = .ok (c, dest) ↔ t[0] = HEAD ∧ t[1] = CMD_ID ∧ t[18] = TAIL ∧ t[17] = commandChecksum t ∧
      identify t = some c ∧ u16be t[15] t[16] = dest := by
  unfold parseCommand
  split_ifs with h0 h1 h18 h17
  · simp [h0]
  · simp [h1]
  · simp [h18]
  · simp [h17]
  · cases hi : identify t <;> simp_all

/-- The reader accepts the frames of the well-formed commands, and nothing else. -/
theorem parseCommand_eq_ok_iff_encodeCommand {t : CommandFrame} {c : WireCommand} {dest : Half} :
    parseCommand t = .ok (c, dest) ↔ c.wf = true ∧ encodeCommand c dest = t := by
  rw [parseCommand_eq_ok_iff, identify_eq_some_iff, u16be_eq_iff, encodeCommand, frame_eq_iff]
  constructor
  · rintro ⟨h0, h1, h18, h17, ⟨hwf, hcode, hp⟩, h15, h16⟩
    exact ⟨hwf, h0, h1, hcode, hp, h15, h16, h17, h18⟩
  · rintro ⟨hwf, h0, h1, hcode, hp, h15, h16, h17, h18⟩
    exact ⟨h0, h1, h18, h17, ⟨hwf, hcode, hp⟩, h15, h16⟩

/-- Settles O4: a command's frame is one that the reader accepts as that command. -/
theorem commandFrameRoundTrip : Obligations.CommandFrameRoundTrip :=
  fun _ _ hwf => parseCommand_eq_ok_iff_encodeCommand.2 ⟨hwf, rfl⟩

/-- Settles O5: the reader accepts nothing but the frames of the well-formed commands. -/
theorem commandFrameReadsOneWay : Obligations.CommandFrameReadsOneWay :=
  fun _ _ _ h => parseCommand_eq_ok_iff_encodeCommand.1 h

end Sys2Proof

namespace Sys2Proof.Machine

/-! ### The step of the decoded operation (R91) -/

section
variable {s : State} {i : Instr}

/-- An active engine runs the cycle of the operation that L_OP decodes to, on the state that the host's access has left. -/
theorem step_exec (hr : (nextInputs s).pins.rstN = true) (ha : engineActive (nextInputs s) = true)
    (hi : runningOp (hostAccess (nextInputs s)) = .ok i) :
    step s = thenEndCycle (exec i (hostAccess (nextInputs s))) := by
  simp [step, hr, ha, engineCycle, hi]

/-- A host write does not look at the read data of the cycle before. -/
theorem writeReg_withRead (a : BitVec 8) (v : Word) (d r : Option Word) (s : State) :
    { writeReg a v { s with busRdata := d } with busRdata := r } = { writeReg a v s with busRdata := r } := by
  unfold writeReg
  cases hostReg a
  case go =>
    cases hb : s.busy <;> simp [writeHostReg, writeGo, hb, flagsOnCollide, startOperation, flagsOnStart]
  all_goals rfl

variable {c : CycleIn} {rest : List EnvStep}

/-- The host's access of a listed cycle, written out (R63, R69). -/
theorem hostAccess_nextInputs_cycle (he : s.env = .cycle c :: rest) :
    hostAccess (nextInputs s) = Spec.accessed c rest (hostRead (nextInputs s)) s := by
  have hc : (nextInputs s).pins = c := by rw [nextInputs_cycle he]
  unfold hostAccess Spec.accessed
  rw [hc]
  split
  · generalize hostRead (nextInputs s) = r
    rw [nextInputs_cycle he]
    exact writeReg_withRead c.busAddr c.busWdata none r
      { s with pins := c, rxStream := s.rxStream ++ c.rxArrive, env := rest }
  · generalize hostRead (nextInputs s) = r
    rw [nextInputs_cycle he]

theorem readData_hostRead (he : s.env = .cycle c :: rest) : Spec.readData c (hostRead (nextInputs s)) s := by
  have hc : (nextInputs s).pins = c := by rw [nextInputs_cycle he]
  cases hre : c.busRe <;> cases hwe : c.busWe <;>
    simp [Spec.readData, hostRead, hc, hre, hwe, readReg_nextInputs_cycle he]

/-- A listed cycle of a running operation finds the engine active, unless its DISPATCH step is put off (R41). -/
theorem engineActive_nextInputs_cycle (he : s.env = .cycle c :: rest) (hp : s.phase ≠ .idle)
    (hd : s.phase = .dispatch → c.dispatchHold = false) : engineActive (nextInputs s) = true := by
  rw [nextInputs_cycle he]
  cases hph : s.phase <;> simp_all [engineActive]

end

theorem runningOp_of_decode {s : State} {i : Instr} (h : decode [s.latch.op] = .ok (i, [])) : runningOp s = .ok i :=
  decode_cons_eq_ok_iff.1 h

/-- No host access of a running operation's cycle changes L_OP (R30, R42). -/
theorem runningOp_hostAccess_nextInputs {s : State} (hb : s.busy = true) :
    runningOp (hostAccess (nextInputs s)) = runningOp s := by
  obtain ⟨p, rx, e, w, n, hn, -⟩ := nextInputs_eq s
  obtain ⟨d, k, cf, r, hh, -⟩ := hostAccess_busy (s := nextInputs s) (by rw [hn]; exact hb)
  rw [hh, hn]
  rfl

/-- Settles O46: in both clauses L_OP, which the host's access leaves, decodes to the operation, and the engine is active. -/
theorem stepRunsOperation : Obligations.StepRunsOperation := by
  constructor
  · intro s i hr ha hd _
    exact step_exec hr ha (runningOp_of_decode hd)
  · intro s i c rest hb hp hdisp hd he hr
    have hrst : (nextInputs s).pins.rstN = true := by rw [nextInputs_cycle he]; exact hr
    have hi : runningOp (hostAccess (nextInputs s)) = .ok i :=
      (runningOp_hostAccess_nextInputs hb).trans (runningOp_of_decode hd)
    refine ⟨hostRead (nextInputs s), readData_hostRead he, ?_⟩
    rw [← hostAccess_nextInputs_cycle he]
    exact step_exec hrst (engineActive_nextInputs_cycle he hp hdisp) hi

end Sys2Proof.Machine
end

section
/-! SUPPORT. The statements of 40_framing.md: the bytes of a built frame, BUILD, SEND, and the write phase. -/

namespace Sys2Proof

/-! ### The bytes of a frame (R110, R114) -/

/-- The checksum byte sums the command, the payload without its padding, and the destination (R114). -/
theorem frame_checksum_unpadded (cmd : Byte) {p : List Byte} (dest : Half) (h : payloadFits p = true) :
    (frame cmd p dest)[17] = sum8 ([cmd] ++ p ++ [hiByte dest, loByte dest]) := by
  have hpad : (frame cmd p dest)[17] = sum8 ([cmd] ++ (pad12 p).toList ++ [hiByte dest, loByte dest]) := rfl
  have hsum := pad12_sum p (of_decide_eq_true h)
  rw [hpad, sum8, sum8]
  simp only [List.map_append, List.sum_append, hsum]

/-- Settles O6: the frame's bytes one by one, and the checksum's sum without the padding. -/
theorem frameLayout : Obligations.FrameLayout := by
  intro cmd p dest hfits
  obtain ⟨h0, h1, h2, hp, h15, h16, -, h18⟩ := frame_eq_iff.1 (Eq.refl (frame cmd p dest))
  refine ⟨h0, h1, h2, hp, ?_, ?_, ?_, h18⟩
  · rw [h15, hiByte_toNat]
  · rw [h16, loByte_toNat]
  · rw [frame_checksum_unpadded cmd dest hfits, sum8_toNat]
    simp [hiByte_toNat, loByte_toNat, Nat.add_assoc]

/-- Settles O7: the reader's checksum is the one the build step wrote, and the padding's bytes are 0. -/
theorem frameChecksumCoverage : Obligations.FrameChecksumCoverage :=
  fun cmd p dest hfits => ⟨(commandChecksum_frame cmd p dest).symm, frame_checksum_unpadded cmd dest hfits⟩

end Sys2Proof

namespace Sys2Proof.Machine

/-! ### BUILD (R111 to R113) -/

/-- `finish` leaves the result registers (R45, R205). -/
theorem finish_eq_finished (c : ResultCode) (s : State) : finish c s = Spec.finished c s.res s := rfl

theorem plenTooLong_iff {l : Latch} : plenTooLong l = true ↔ 12 < l.plen.toNat := decide_eq_true_iff

/-- Settles O8: the precondition decides which of its two finishes BUILD takes. -/
theorem buildRule : Obligations.BuildRule := by
  intro s hp
  rw [exec_dispatch hp]
  by_cases hlen : s.latch.plen.toNat ≤ 12
  · have hfits : ¬ plenTooLong s.latch = true := by rw [plenTooLong_iff]; omega
    rw [startOf, if_neg hfits, if_pos hlen]
    rfl
  · rw [startOf, if_pos (plenTooLong_iff.2 (by omega)), if_neg hlen]
    rfl

/-- Settles O9: the second arm of BUILD's rule. -/
theorem buildRefusesLongPayload : Obligations.BuildRefusesLongPayload := by
  intro s hp hlen
  rw [buildRule s hp, if_neg (by omega)]

/-! ### SEND, and the cycles of a write phase (R115 to R117) -/

section
variable {i : Instr} {s : State}

/-- A write phase waits while the channel accepts nothing (R23, R243). -/
theorem exec_tx_stall {k : Fin 19} (ht : transmits i = true) (hp : s.phase = .tx k) (hr : s.pins.txReady = false) :
    exec i s = .next s := by
  rw [exec_tx ht hp, transmitCycle_stall hr]

/-- An accepted byte before the last one joins the TX stream, and the next byte is offered (R116). -/
theorem exec_tx_advance {k : Nat} (hk : k + 1 < 19) (ht : transmits i = true) (hp : s.phase = .tx ⟨k, by omega⟩)
    (hr : s.pins.txReady = true) :
    exec i s = .next { s with txStream := s.txStream ++ [s.txbuf[k]], phase := .tx ⟨k + 1, hk⟩ } := by
  rw [exec_tx ht hp, transmitCycle_advance hk hr]
  rfl

end

/-- Settles O10: TXV and `chan_open` decide the DISPATCH step, and the last transfer is followed by the finish with OK. -/
theorem sendRule : Obligations.SendRule := by
  intro s
  constructor
  · intro hp
    rw [exec_dispatch hp]
    cases hv : s.txv
    · simp [startOf, hv, finish_eq_finished]
    · cases hc : s.pins.chanOpen <;> simp [startOf, startTransmit, hv, hc, finish_eq_finished]
  · intro hp hr
    rw [exec_tx rfl hp, transmitCycle_last hr]
    rfl

/-- Settles O11: the two cycles of a write phase. -/
theorem transmitOneByte : Obligations.TransmitOneByte :=
  fun _ _ _ _ ht hp => ⟨exec_tx_stall ht hp, fun hk' hr => exec_tx_advance hk' ht hp hr⟩

/-! ### A run of a write phase (R61, R116, R243) -/

/-- What holds in every cycle of a write phase of `i`, in TX(k): the operation runs, TXBUF is still the frame `f`, and the
bytes before `f[k]` have joined the TX stream, which was `tx` when the phase began. -/
structure Sending (i : Instr) (f : CommandFrame) (tx : List Byte) (k : Nat) (s : State) : Prop where
  busy : s.busy = true
  running : runningOp s = .ok i
  unchanged : s.txbuf = f
  phase : ∃ hk : k < 19, s.phase = .tx ⟨k, hk⟩
  sent : s.txStream = tx ++ f.toList.take k

section
variable {i : Instr} {f : CommandFrame} {tx : List Byte}

/-- The write phase goes on in a cycle of the operation that does not accept the last byte. -/
theorem Sending.exec_next {k : Nat} {s : State} (h : Sending i f tx k s) (ht : transmits i = true)
    (hk : k + s.pins.txReady.toNat < 19) :
    ∃ t, exec i s = .next t ∧ t.env = s.env ∧ Sending i f tx (k + s.pins.txReady.toNat) t := by
  obtain ⟨hb, hi, rfl, ⟨hk19, hp⟩, hs⟩ := h
  cases hr : s.pins.txReady with
  | false => exact ⟨s, exec_tx_stall ht hp hr, rfl, hb, hi, rfl, ⟨hk19, hp⟩, hs⟩
  | true =>
    rw [hr] at hk
    refine ⟨_, exec_tx_advance hk ht hp hr, rfl, hb, hi, rfl, ⟨hk, rfl⟩, ?_⟩
    simp [hs, List.take_add_one, hk19]

/-- The same in a listed cycle of the block, whatever the host accesses in it. -/
theorem Sending.step_next {k : Nat} {s : State} {c : CycleIn} {rest : List EnvStep} (h : Sending i f tx k s)
    (ht : transmits i = true) (he : s.env = .cycle c :: rest) (hr : c.rstN = true) (hk : k + c.txReady.toNat < 19) :
    ∃ t, step s = .next t ∧ t.env = rest ∧ Sending i f tx (k + c.txReady.toNat) t := by
  obtain ⟨hb, hi, hf, ⟨hk19, hp⟩, hs⟩ := h
  obtain ⟨d, col, cf, r, hstep, -⟩ := step_running hb hi (by simp [hp]) (by simp [hp]) he hr
  obtain ⟨u, hu, henv, hb', hi', hf', hp', hs'⟩ := Sending.exec_next (s :=
    { s with pins := c, rxStream := s.rxStream ++ c.rxArrive, env := rest, done := d, collide := col, cfg := cf,
             busRdata := r }) ⟨hb, hi, hf, ⟨hk19, hp⟩, hs⟩ ht hk
  rw [hu] at hstep
  exact ⟨endCycle u, hstep, henv, hb', hi', hf', hp', hs'⟩

/-- The same over any listed cycles without reset: each accepted byte advances the phase by one. -/
theorem Sending.runCycles_next (ht : transmits i = true) (rest : List EnvStep) (cs : List CycleIn) {k : Nat} {s : State}
    (h : Sending i f tx k s) (he : s.env = cs.map EnvStep.cycle ++ rest) (hr : ∀ c ∈ cs, c.rstN = true)
    (hk : k + cs.countP (·.txReady) < 19) :
    ∃ t, runCycles cs.length s = .next t ∧ t.env = rest ∧ Sending i f tx (k + cs.countP (·.txReady)) t := by
  induction cs generalizing k s with
  | nil => exact ⟨s, rfl, he, h⟩
  | cons c cs ih =>
    have hcount : k + (c :: cs).countP (·.txReady) = k + c.txReady.toNat + cs.countP (·.txReady) := by
      rw [List.countP_cons]
      cases c.txReady with
      | false => simp
      | true => simp; omega
    rw [hcount] at hk ⊢
    obtain ⟨u, hu, henv, hsend⟩ := h.step_next ht he (hr c (by simp)) (by omega)
    obtain ⟨t, htail, hfinal⟩ := ih hsend henv (fun c' hc' => hr c' (by simp [hc'])) hk
    refine ⟨t, ?_, hfinal⟩
    simp only [List.length_cons, runCycles, hu, htail]

end

/-- Settles O12: the write phase is `Sending` from TX(0) on, where nothing is sent yet, to the end of the run. -/
theorem writePhaseSendsInOrder : Obligations.WritePhaseSendsInOrder := by
  intro i s cs rest hb hi ht hp hr hn he
  have hstart : Sending i s.txbuf s.txStream 0 s := ⟨hb, hi, rfl, ⟨by decide, hp⟩, by simp⟩
  obtain ⟨t, hrun, henv, hend⟩ := hstart.runCycles_next ht rest cs he hr (by omega)
  rw [Nat.zero_add] at hend
  obtain ⟨_, hphase⟩ := hend.phase
  exact ⟨t, hrun, henv, hend.busy, hend.unchanged, hphase, hend.sent⟩

end Sys2Proof.Machine
end

section
/-! SUPPORT. The statements of 41_receive.md: the checks of a response, the cycles of a receive phase, its runs, and the
event "the window expires". -/

namespace Sys2Proof

/-! ### The checks of a response (R135, R136, R142) -/

section
variable {f : ResponseFrame}

/-- The checksum check compares the exact sum modulo 256 with F[8] (R135). -/
theorem checksumPasses_iff : checksumPasses f = true ↔ Spec.frameSum f % 256 = f[8].toNat := by
  rw [checksumPasses, beq_iff_eq, responseSum, sum8_eq_iff]
  simp [Spec.frameSum, Nat.add_assoc]

theorem tailPasses_iff : tailPasses f = true ↔ f[9] = 0xAB := beq_iff_eq

theorem responseValid_iff : responseValid f = true ↔ Spec.frameSum f % 256 = f[8].toNat ∧ f[9] = 0xAB := by
  rw [responseValid, Bool.and_eq_true, checksumPasses_iff, tailPasses_iff]

/-- Changing one of F[1..7] moves the sum by the difference of the two bytes. -/
theorem frameSum_set {p : Nat} (h1 : 1 ≤ p) (h7 : p ≤ 7) (b : Byte) :
    Spec.frameSum (f.set p b) + f[p].toNat = Spec.frameSum f + b.toNat := by
  interval_cases p <;> simp [Spec.frameSum] <;> omega

/-- The sum does not look at F[8] and F[9] (R135). -/
theorem frameSum_set_of_gt {p : Nat} (h7 : 7 < p) (hp : p < 10) (b : Byte) :
    Spec.frameSum (f.set p b) = Spec.frameSum f := by
  obtain rfl | rfl : p = 8 ∨ p = 9 := by omega
  all_goals simp [Spec.frameSum]

end

/-- Settles O18: the two checks, each as the statement writes it. -/
theorem responseValidity : Obligations.ResponseValidity := fun _ => responseValid_iff

/-- Settles O20: two bytes that differ differ by less than 256, so a change among F[1..7] changes the sum modulo 256 and not
F[8]; a change of F[8] changes F[8] and not the sum; F[9] has one valid value. -/
theorem singleByteErrorsDetected : Obligations.SingleByteErrorsDetected := by
  intro f p hp b hv h1 hb
  obtain ⟨hsum, htail⟩ := responseValid_iff.1 hv
  rw [Bool.eq_false_iff, ne_eq, responseValid_iff]
  rintro ⟨hsum', htail'⟩
  have hne : b.toNat ≠ f[p].toNat := fun h => hb (BitVec.eq_of_toNat_eq h)
  obtain h7 | rfl | rfl : p ≤ 7 ∨ p = 8 ∨ p = 9 := by omega
  · have hset := frameSum_set (f := f) h1 h7 b
    have h8 : (f.set p b)[8] = f[8] := Vector.getElem_set_ne _ _ (by omega)
    rw [h8] at hsum'
    have := b.isLt
    have := f[p].isLt
    omega
  · rw [frameSum_set_of_gt (by decide) (by decide), Vector.getElem_set_self] at hsum'
    exact hne (hsum'.symm.trans hsum)
  · rw [Vector.getElem_set_self] at htail'
    exact hb (htail'.trans htail.symm)

end Sys2Proof

namespace Sys2Proof.Machine

/-! ### The cycles of a receive phase (R130 to R139) -/

/-- Settles O13: both steps are `beginReceive`, after the last transfer in a command's TX(18). -/
theorem receivePhaseStarts : Obligations.ReceivePhaseStarts := by
  constructor
  · intro s hp
    rw [exec_dispatch hp]
    rfl
  · intro i s hc hp hr
    rw [exec_tx (by simp [transmits, hc]) hp, transmitCycle_last hr, afterWrite, if_pos hc]
    rfl

section
variable {i : Instr} {s : State}

theorem syncByte_head : syncByte HEAD s = openBody { s with rxbuf := s.rxbuf.set 0 HEAD, rxcount := 1 } := if_pos rfl

theorem syncByte_discard {b : Byte} (hb : b ≠ HEAD) (hd : s.discards.toNat < 19) :
    syncByte b s = openSync { s with discards := s.discards + 1 } := by
  have hcap : s.discards + 1 ≠ BitVec.ofNat 5 SYNC_CAP := by
    simp only [SYNC_CAP]
    bv_omega
  rw [syncByte, if_neg hb, if_neg hcap]

theorem syncByte_cap {b : Byte} (hb : b ≠ HEAD) (hd : s.discards.toNat = 19) :
    syncByte b s = finish .syncFail { s with discards := 20 } := by
  have hcap : s.discards + 1 = BitVec.ofNat 5 SYNC_CAP := by
    simp only [SYNC_CAP]
    bv_omega
  rw [syncByte, if_neg hb, if_pos hcap, hcap]
  rfl

variable {b : Byte} {rest : List Byte}

theorem exec_sync_head (hr : receives i = true) (hp : s.phase = .sync) (ho : Spec.offers s 0xAA rest) :
    exec i s = .next { s with rxStream := rest, rxbuf := s.rxbuf.set 0 0xAA, rxcount := 1, phase := .body 0,
                              wtimer := s.rxTimeout } := by
  obtain ⟨hoff, hs⟩ := ho
  rw [exec_sync hr hp, syncCycle_byte hoff hs]
  exact congrArg _ syncByte_head

theorem exec_sync_discard (hr : receives i = true) (hp : s.phase = .sync) (ho : Spec.offers s b rest) (hb : b ≠ 0xAA)
    (hd : s.discards.toNat < 19) :
    exec i s = .next { s with rxStream := rest, discards := s.discards + 1, phase := .sync, wtimer := s.rxTimeout } := by
  obtain ⟨hoff, hs⟩ := ho
  rw [exec_sync hr hp, syncCycle_byte hoff hs]
  exact congrArg _ (syncByte_discard hb hd)

theorem exec_sync_cap (hr : receives i = true) (hp : s.phase = .sync) (ho : Spec.offers s b rest) (hb : b ≠ 0xAA)
    (hd : s.discards.toNat = 19) :
    exec i s = .next (finish .syncFail { s with rxStream := rest, discards := 20, wtimer := s.wtimer - 1 }) := by
  obtain ⟨hoff, hs⟩ := ho
  rw [exec_sync hr hp, syncCycle_byte hoff hs]
  exact congrArg _ (syncByte_cap hb hd)

/-- Settles O14: the three things a byte can do in SYNC. -/
theorem syncByteRule : Obligations.SyncByteRule := by
  intro i s b rest hr hp ho
  refine ⟨?_, exec_sync_discard hr hp ho, exec_sync_cap hr hp ho⟩
  rintro rfl
  exact exec_sync_head hr hp ho

/-- A cycle without a byte in an open window counts the timer down, or ends the operation in the window's last cycle
(R131). -/
theorem windowWaits_tickWindow (c : ResultCode) (s : State) : windowWaits c (tickWindow s) =
    if s.wtimer ≤ 1 then finish c { s with wtimer := 0 } else { s with wtimer := s.wtimer - 1 } := by
  unfold windowWaits
  split
  · next h =>
    have hle : s.wtimer ≤ 1 := Nat.sub_eq_zero_iff_le.1 h
    rw [if_pos hle, tickWindow, Nat.sub_eq_zero_of_le hle]
  · next h => rw [if_neg (mt Nat.sub_eq_zero_of_le h), tickWindow]

/-- The code of an expired window: TIMEOUT in SYNC, BODY_INCOMPLETE in BODY (R139). -/
def expiryCode : Phase → ResultCode
  | .sync => .timeout
  | .idle | .dispatch | .tx _ | .body _ => .bodyIncomplete

theorem exec_window_empty (hr : receives i = true) (hw : s.inWindow = true) (hn : s.rxOffered = none) :
    exec i s = .next (windowWaits (expiryCode s.phase) (tickWindow s)) := by
  obtain hp | ⟨k, hp⟩ := State.inWindow_iff.1 hw
  · rw [exec_sync hr hp, syncCycle, hn, hp]
    rfl
  · rw [exec_body hr hp, bodyCycle, hn, hp]
    rfl

/-- Settles O15: the cycle of an empty window, with the code of its phase. -/
theorem windowExpiryRule : Obligations.WindowExpiryRule := by
  intro i s hr h
  have hn := rxOffered_none h
  constructor
  · intro hp
    rw [exec_window_empty hr (State.inWindow_iff.2 (.inl hp)) hn, windowWaits_tickWindow, hp]
    rfl
  · intro k hp
    rw [exec_window_empty hr (State.inWindow_iff.2 (.inr ⟨k, hp⟩)) hn, windowWaits_tickWindow, hp]
    rfl

theorem exec_body_byte {k : Nat} (hk : k < 8) (hr : receives i = true) (hp : s.phase = .body ⟨k, by omega⟩)
    (ho : Spec.offers s b rest) :
    exec i s = .next { s with rxStream := rest, wtimer := s.wtimer - 1, rxbuf := s.rxbuf.set (k + 1) b,
                              rxcount := BitVec.ofNat 4 (k + 2), phase := .body ⟨k + 1, by omega⟩ } := by
  obtain ⟨hoff, hs⟩ := ho
  rw [exec_body hr hp, bodyCycle_byte (by omega) hoff hs]
  rfl

/-- Settles O16: a captured byte opens no window, and the timer counts down to 0 from 0 as from 1. -/
theorem bodyByteRule : Obligations.BodyByteRule := by
  constructor
  · intro i s b rest k hk hr hp ho
    exact exec_body_byte hk hr hp ho
  · intro i s b rest k hr hp ⟨ho, hs⟩
    have hoff : ∀ w, State.rxOffered { s with wtimer := w } = some b := fun w =>
      rxOffered_some (s := { s with wtimer := w }) ho hs
    rw [exec_body hr (s := { s with wtimer := 0 }) hp, exec_body hr (s := { s with wtimer := 1 }) hp, bodyCycle, bodyCycle,
      hoff, hoff]
    rfl

theorem validate_badChecksum {onValid : State → State} (h : Spec.frameSum s.rxbuf % 256 ≠ s.rxbuf[8].toNat) :
    validate onValid s = finish .badChecksum s := if_neg (mt checksumPasses_iff.1 h)

theorem validate_badTail {onValid : State → State} (h : Spec.frameSum s.rxbuf % 256 = s.rxbuf[8].toNat)
    (ht : s.rxbuf[9] ≠ 0xAB) : validate onValid s = finish .badTail s := by
  rw [validate, if_pos (checksumPasses_iff.2 h), if_neg (mt tailPasses_iff.1 ht)]

/-- Settles O17: the captured F[9] is no part of what the checksum check compares. -/
theorem badFramesRejected : Obligations.BadFramesRejected := by
  intro i s b rest hr hp ⟨ho, hs⟩
  rw [exec_body hr hp, bodyCycle_last ho hs]
  have hsum : Spec.frameSum (s.rxbuf.set 9 b) = Spec.frameSum s.rxbuf := frameSum_set_of_gt (by decide) (by decide) b
  have h8 : (s.rxbuf.set 9 b)[8] = s.rxbuf[8] := Vector.getElem_set_ne _ _ (by decide)
  have h9 : (s.rxbuf.set 9 b)[9] = b := Vector.getElem_set_self _
  constructor
  · intro hc
    rw [validate_badChecksum (by simp only [hsum, h8]; exact hc)]
    rfl
  · intro hc hb
    rw [validate_badTail (by simp only [hsum, h8]; exact hc) (by simp only [h9]; exact hb)]
    rfl

/-- Settles O19: RECEIVE makes of a valid frame a finish with OK. -/
theorem receiveCompletes : Obligations.ReceiveCompletes := by
  intro s b rest hp ⟨ho, hs⟩ hv
  rw [exec_lastByte_valid rfl hp ho hs hv]
  rfl

end

/-! ### The event "the window expires" (R131) -/

/-- The state with quiet ports, the listed inputs `rest`, the timer at `w`, and the cycle number `n`: what a quiet cycle or
the event of the expiry makes of an open window before the engine acts. -/
def quietPorts (rest : List EnvStep) (w n : Nat) (s : State) : State :=
  { s with pins := quietCycle s.pins.chanOpen, busRdata := none, env := rest, wtimer := w, cycle := n }

section
variable {i : Instr} {s : State} {rest : List EnvStep}

theorem engineActive_of_inWindow (hw : s.inWindow = true) : engineActive s = true := by
  obtain hp | ⟨k, hp⟩ := State.inWindow_iff.1 hw
  all_goals simp [engineActive, hp]

theorem phase_ne_of_inWindow (hw : s.inWindow = true) : s.phase ≠ .idle ∧ s.phase ≠ .dispatch := by
  obtain hp | ⟨k, hp⟩ := State.inWindow_iff.1 hw
  all_goals simp [hp]

theorem step_quietCycle (hw : s.inWindow = true) (he : s.env = .cycle (quietCycle s.pins.chanOpen) :: rest) :
    step s = thenEndCycle (engineCycle (quietPorts rest s.wtimer s.cycle s)) := by
  have hn : nextInputs s = quietPorts rest s.wtimer s.cycle s := by
    simp [nextInputs_cycle he, quietPorts, quietCycle]
  exact step_without_access hn (engineActive_of_inWindow hw) rfl rfl rfl rfl

theorem step_expire (hw : s.inWindow = true) (he : s.env = .expire :: rest) :
    step s = thenEndCycle (engineCycle (quietPorts rest 1 (s.cycle + (s.wtimer - 1)) s)) := by
  have hskip : skipWindow { s with env := rest } =
      { s with env := rest, wtimer := 1, cycle := s.cycle + (s.wtimer - 1) } := if_pos hw
  have hn : nextInputs s = quietPorts rest 1 (s.cycle + (s.wtimer - 1)) s := by
    simp [nextInputs, he, hskip, takeInputs, quietPorts, quietCycle]
  exact step_without_access hn (engineActive_of_inWindow hw) rfl rfl rfl rfl

/-- No byte is offered at quiet ports: the timer counts down, or the window expires. -/
theorem engineCycle_quietPorts (hi : runningOp s = .ok i) (hr : receives i = true) (hw : s.inWindow = true) (w n : Nat) :
    engineCycle (quietPorts rest w n s) = .next (if w ≤ 1 then finish (expiryCode s.phase) (quietPorts rest 0 n s)
      else quietPorts rest (w - 1) n s) := by
  have hop : runningOp (quietPorts rest w n s) = .ok i := hi
  have hopen : (quietPorts rest w n s).inWindow = true := hw
  rw [engineCycle, hop]
  simp only [exec_window_empty hr hopen (rxOffered_none (.inl rfl)), windowWaits_tickWindow]
  rfl

/-- An op code that receives nothing never stands in an open window (log entry 11). -/
theorem engineCycle_stray (hw : s.inWindow = true) (hn : ∀ i, runningOp s = .ok i → receives i ≠ true) :
    engineCycle s = .fault .strayPhase := by
  have hp := State.inWindow_iff.1 hw
  unfold engineCycle
  split
  · next i hi =>
    have hrec := hn i hi
    cases i
    case build => rcases hp with hp | ⟨k, hp⟩ <;> simp [exec, execBuild, hp]
    case send => rcases hp with hp | ⟨k, hp⟩ <;> simp [exec, execSend, hp]
    all_goals exact absurd rfl hrec
  · rcases hp with hp | ⟨k, hp⟩ <;> simp [illegalOpCycle, hp]

theorem step_stray (hw : s.inWindow = true) (hn : ∀ i, runningOp s = .ok i → receives i ≠ true)
    (he : s.env = .cycle (quietCycle s.pins.chanOpen) :: rest ∨ s.env = .expire :: rest) :
    step s = .fault .strayPhase := by
  have hstray : ∀ w k, engineCycle (quietPorts rest w k s) = .fault .strayPhase := fun _ _ => engineCycle_stray hw hn
  rcases he with he | he
  · rw [step_quietCycle hw he, hstray]
    rfl
  · rw [step_expire hw he, hstray]
    rfl

theorem step_expire_finishes (hi : runningOp s = .ok i) (hr : receives i = true) (hw : s.inWindow = true)
    (he : s.env = .expire :: rest) :
    step s = .next (endCycle (finish (expiryCode s.phase) (quietPorts rest 0 (s.cycle + (s.wtimer - 1)) s))) := by
  rw [step_expire hw he, engineCycle_quietPorts hi hr hw]
  rfl

theorem runCycles_succ_of_step {t : State} (n : Nat) (h : step s = .next t) : runCycles (n + 1) s = runCycles n t := by
  simp only [runCycles, h]

theorem runCycles_fault {r : Fault} {n : Nat} (hn : 0 < n) (h : step s = .fault r) : runCycles n s = .fault r := by
  obtain ⟨m, rfl⟩ := Nat.exists_eq_add_of_lt hn
  simp only [runCycles, h]

/-- The quiet cycles that an open window still counts end where the event of its expiry ends. -/
theorem runCycles_quiet (hr : receives i = true) {w : Nat} (hpos : 0 < w) (hi : runningOp s = .ok i)
    (hw : s.inWindow = true) (ht : s.wtimer = w)
    (he : s.env = List.replicate w (.cycle (quietCycle s.pins.chanOpen)) ++ rest) :
    runCycles w s = .next (endCycle (finish (expiryCode s.phase) (quietPorts rest 0 (s.cycle + (w - 1)) s))) := by
  obtain ⟨n, rfl⟩ := Nat.exists_eq_add_one.2 hpos
  clear hpos
  induction n generalizing s with
  | zero =>
    refine runCycles_succ_of_step 0 ?_
    rw [step_quietCycle hw he, engineCycle_quietPorts hi hr hw, if_pos (by omega)]
    rfl
  | succ n ih =>
    have hstep : step s = .next (endCycle (quietPorts
        (List.replicate (n + 1) (.cycle (quietCycle s.pins.chanOpen)) ++ rest) (n + 1) s.cycle s)) := by
      rw [step_quietCycle hw he, engineCycle_quietPorts hi hr hw, if_neg (by omega), ht]
      rfl
    rw [runCycles_succ_of_step _ hstep, ih (s := endCycle (quietPorts _ (n + 1) s.cycle s)) hi hw rfl rfl]
    have hc : s.cycle + 1 + n = s.cycle + (n + 1) := by omega
    simp [quietPorts, endCycle, finish, flagsOnFinish, quietCycle, hc]

end

/-- Settles O53: an operation that receives counts the window down and ends it, by either; another op code stops in the first
cycle, by either. -/
theorem expiryIsQuietWindow : Obligations.ExpiryIsQuietWindow := by
  intro s rest hw hpos
  by_cases hop : ∃ i, runningOp s = .ok i ∧ receives i = true
  · obtain ⟨i, hi, hr⟩ := hop
    exact Eq.trans (runCycles_quiet hr hpos hi hw rfl rfl) (Eq.symm (step_expire_finishes hi hr hw rfl))
  · have hstray : ∀ i, runningOp s = .ok i → receives i ≠ true := fun i hi hr => hop ⟨i, hi, hr⟩
    have he : List.replicate s.wtimer (.cycle (quietCycle s.pins.chanOpen)) ++ rest = .cycle (quietCycle s.pins.chanOpen) ::
        (List.replicate (s.wtimer - 1) (.cycle (quietCycle s.pins.chanOpen)) ++ rest) := by
      rw [← List.cons_append, ← List.replicate_succ, Nat.sub_add_cancel hpos]
    exact Eq.trans (runCycles_fault hpos (step_stray hw hstray (.inl he))) (Eq.symm (step_stray hw hstray (.inr rfl)))

/-! ### A receive phase ends (R140) -/

/-- How many steps a receive phase can still take: what is left of the open window, a whole window for each discard still
allowed and for the body, and a step for each byte still to come. -/
def stepsLeft (s : State) : Nat :=
  match s.phase with
  | .sync => s.wtimer + (20 - s.discards.toNat) * s.rxTimeout + (29 - s.discards.toNat)
  | .body k => s.wtimer + (9 - k.val)
  | .idle | .dispatch | .tx _ => 0

/-- The operation has finished (R205). -/
def Finished (t : State) : Prop := t.phase = .idle ∧ t.busy = false ∧ t.done = true

/-- A step of a receive phase finishes, or leaves a window open with fewer steps to come. -/
def NearerToFinish (s t : State) : Prop := Finished t ∨ (t.inWindow = true ∧ stepsLeft t < stepsLeft s)

section
variable {i : Instr} {s : State}

theorem finish_finished (c : ResultCode) (s : State) : Finished (finish c s) := ⟨rfl, rfl, rfl⟩

theorem stepsLeft_sync (hp : s.phase = .sync) :
    stepsLeft s = s.wtimer + (20 - s.discards.toNat) * s.rxTimeout + (29 - s.discards.toNat) := by simp [stepsLeft, hp]

theorem stepsLeft_body {k : Fin 9} (hp : s.phase = .body k) : stepsLeft s = s.wtimer + (9 - k.val) := by
  simp [stepsLeft, hp]

theorem stepsLeft_pos (hw : s.inWindow = true) (hd : s.phase = .sync → s.discards.toNat ≤ 19) : 0 < stepsLeft s := by
  obtain hp | ⟨k, hp⟩ := State.inWindow_iff.1 hw
  · have := hd hp
    rw [stepsLeft_sync hp]
    omega
  · have := k.isLt
    rw [stepsLeft_body hp]
    omega

theorem windowWaits_nearer (c : ResultCode) (hw : s.inWindow = true) :
    NearerToFinish s (windowWaits c (tickWindow s)) := by
  rw [windowWaits_tickWindow]
  split
  · exact .inl (finish_finished _ _)
  · refine .inr ⟨hw, ?_⟩
    obtain hp | ⟨k, hp⟩ := State.inWindow_iff.1 hw
    · rw [stepsLeft_sync hp, stepsLeft_sync (by exact hp)]
      dsimp only
      omega
    · rw [stepsLeft_body hp, stepsLeft_body (by exact hp)]
      dsimp only
      omega

/-- A byte in SYNC gives up its window, which is one of those still allowed. -/
theorem exec_syncByte_nearer {b : Byte} {rest : List Byte} (hr : receives i = true) (hp : s.phase = .sync)
    (hd : s.discards.toNat ≤ 19) (ho : Spec.offers s b rest) : ∃ t, exec i s = .next t ∧ NearerToFinish s t := by
  have hwindow : (20 - s.discards.toNat) * s.rxTimeout = (20 - (s.discards.toNat + 1)) * s.rxTimeout + s.rxTimeout := by
    rw [← Nat.succ_mul]
    congr 1
    omega
  by_cases hb : b = 0xAA
  · subst hb
    refine ⟨_, exec_sync_head hr hp ho, .inr ⟨rfl, ?_⟩⟩
    rw [stepsLeft_sync hp, stepsLeft_body rfl]
    dsimp only
    omega
  · obtain hlt | h19 := Nat.lt_or_eq_of_le hd
    · refine ⟨_, exec_sync_discard hr hp ho hb hlt, .inr ⟨rfl, ?_⟩⟩
      have hcount : (s.discards + 1).toNat = s.discards.toNat + 1 := by bv_omega
      rw [stepsLeft_sync hp, stepsLeft_sync rfl]
      dsimp only
      rw [hcount]
      omega
    · exact ⟨_, exec_sync_cap hr hp ho hb h19, .inl (finish_finished _ _)⟩

theorem validate_finished (i : Instr) (s : State) : Finished (validate (onValidOf i) s) := by
  unfold validate
  split
  · split
    · obtain ⟨c, r, h, -⟩ := onValidOf_finishes i s
      rw [h]
      exact finish_finished _ _
    · exact finish_finished _ _
  · exact finish_finished _ _

/-- A body byte is one of nine, and the ninth finishes. -/
theorem exec_bodyByte_nearer {b : Byte} {rest : List Byte} {k : Fin 9} (hr : receives i = true) (hp : s.phase = .body k)
    (ho : Spec.offers s b rest) : ∃ t, exec i s = .next t ∧ NearerToFinish s t := by
  obtain hk | rfl : k.val < 8 ∨ k = 8 := by omega
  · refine ⟨_, exec_body_byte hk hr hp ho, .inr ⟨rfl, ?_⟩⟩
    rw [stepsLeft_body hp, stepsLeft_body rfl]
    dsimp only
    omega
  · obtain ⟨hoff, hs⟩ := ho
    refine ⟨_, exec_body hr hp, .inl ?_⟩
    rw [bodyCycle_last hoff hs]
    exact validate_finished i _

theorem exec_window_nearer (hr : receives i = true) (hw : s.inWindow = true)
    (hd : s.phase = .sync → s.discards.toNat ≤ 19) : ∃ t, exec i s = .next t ∧ NearerToFinish s t := by
  by_cases h : s.pins.rxOffer = false ∨ s.rxStream = []
  · exact ⟨_, exec_window_empty hr hw (rxOffered_none h), windowWaits_nearer _ hw⟩
  · rw [not_or, Bool.not_eq_false] at h
    obtain ⟨hoff, hne⟩ := h
    obtain ⟨b, rest, hs⟩ := List.exists_cons_of_ne_nil hne
    obtain hp | ⟨k, hp⟩ := State.inWindow_iff.1 hw
    · exact exec_syncByte_nearer hr hp (hd hp) ⟨hoff, hs⟩
    · exact exec_bodyByte_nearer hr hp ⟨hoff, hs⟩

/-- The same of a step of the block, whatever the channel offers and the host accesses in it. -/
theorem step_window_nearer {e : EnvStep} {rest : List EnvStep} (h : Inv s) (hw : s.inWindow = true)
    (he : s.env = e :: rest) (hn : e.noReset = true) : ∃ t, step s = .next t ∧ t.env = rest ∧ NearerToFinish s t := by
  obtain ⟨i, hi, hr⟩ := h.rxPhase hw
  cases e with
  | cycle c =>
    obtain ⟨hidle, hdispatch⟩ := phase_ne_of_inWindow hw
    obtain ⟨d, k, cf, r, hstep, -⟩ := step_running (h.busyIff.2 hidle) hi hidle hdispatch he hn
    obtain ⟨u, hu, hnear⟩ := exec_window_nearer (s :=
      { s with pins := c, rxStream := s.rxStream ++ c.rxArrive, env := rest, done := d, collide := k, cfg := cf,
               busRdata := r }) hr hw fun hp => (h.syncCounts hp).2
    obtain ⟨-, -, -, -, -, -, -, henv, -⟩ := exec_outside hu
    rw [hu] at hstep
    exact ⟨endCycle u, hstep, henv, hnear⟩
  | expire => exact ⟨_, step_expire_finishes hi hr hw he, rfl, .inl ⟨rfl, rfl, rfl⟩⟩

/-- From any state of a receive phase, the listed cycles finish it if they are as many as its steps left. -/
theorem receivePhase_finishes (env : List EnvStep) {s : State} (h : Inv s) (hw : s.inWindow = true) (he : s.env = env)
    (hn : ∀ e ∈ env, e.noReset = true) (hlen : stepsLeft s ≤ env.length) :
    ∃ k t, k ≤ stepsLeft s ∧ runCycles k s = .next t ∧ Finished t := by
  have hpos := stepsLeft_pos hw fun hp => (h.syncCounts hp).2
  induction env generalizing s with
  | nil => exact absurd hlen (by simpa using hpos.ne')
  | cons e rest ih =>
    obtain ⟨t, hstep, henv, hfin | ⟨hopen, hless⟩⟩ := step_window_nearer h hw he (hn e (by simp))
    · exact ⟨1, t, hpos, runCycles_succ_of_step 0 hstep, hfin⟩
    · have ht : Inv t := stepKeepsInv s t h hstep
      obtain ⟨k, u, hk, hrun, hfin⟩ := ih ht hopen henv (fun e he => hn e (by simp [he]))
        (by simp only [List.length_cons] at hlen; omega) (stepsLeft_pos hopen fun hp => (ht.syncCounts hp).2)
      exact ⟨k + 1, u, by omega, (runCycles_succ_of_step k hstep).trans hrun, hfin⟩

end

/-- Settles O22: at the start of a receive phase the steps left are 21 windows and 29 bytes. -/
theorem receivePhaseEnds : Obligations.ReceivePhaseEnds := by
  intro s h hp hd ht hn hlen
  have hleft : stepsLeft s = 21 * s.rxTimeout + 29 := by
    rw [stepsLeft_sync hp, hd, ht]
    simp only [BitVec.ofNat_eq_ofNat, BitVec.toNat_ofNat, Nat.zero_mod]
    omega
  rw [← hleft] at hlen ⊢
  exact receivePhase_finishes s.env h (State.inWindow_iff.2 (.inl hp)) rfl hn hlen

/-! ### A run of SYNC (R133) -/

/-- What holds in every cycle of SYNC of `i` with `d` discards behind it: the operation runs, RXBUF is still `rb`, and the
channel holds the bytes `rx`. -/
structure Syncing (i : Instr) (d : Nat) (rb : ResponseFrame) (rx : List Byte) (s : State) : Prop where
  busy : s.busy = true
  running : runningOp s = .ok i
  receiving : receives i = true
  phase : s.phase = .sync
  discarded : s.discards.toNat = d
  unchanged : s.rxbuf = rb
  channel : s.rxStream = rx

/-- A cycle in which the channel offers its front byte and gets no more, and the host does anything but reset. -/
def OffersFront (c : CycleIn) : Prop := c.rstN = true ∧ c.rxOffer = true ∧ c.rxArrive = []

section
variable {i : Instr} {d : Nat} {rb : ResponseFrame} {b : Byte} {rx : List Byte} {s : State} {c : CycleIn}
  {rest : List EnvStep}

/-- A step of SYNC that takes a byte is the operation's cycle on such a state. -/
theorem Syncing.step_exec (h : Syncing i d rb (b :: rx) s) (he : s.env = .cycle c :: rest) (hc : OffersFront c) :
    ∃ u, step s = thenEndCycle (exec i u) ∧ u.env = rest ∧ Spec.offers u b rx ∧ Syncing i d rb (b :: rx) u := by
  obtain ⟨hb, hi, hr, hp, hd, hrb, hrx⟩ := h
  obtain ⟨hrst, hoff, harr⟩ := hc
  obtain ⟨dn, k, cf, r, hstep, -⟩ := step_running hb hi (by simp [hp]) (by simp [hp]) he hrst
  have hrx' : s.rxStream ++ c.rxArrive = b :: rx := by rw [hrx, harr, List.append_nil]
  exact ⟨_, hstep, rfl, ⟨hoff, hrx'⟩, hb, hi, hr, hp, hd, hrb, hrx'⟩

theorem Syncing.step_discard (h : Syncing i d rb (b :: rx) s) (he : s.env = .cycle c :: rest) (hc : OffersFront c)
    (hb : b ≠ 0xAA) (hd : d < 19) : ∃ t, step s = .next t ∧ t.env = rest ∧ Syncing i (d + 1) rb rx t := by
  obtain ⟨u, hstep, henv, ho, hu⟩ := h.step_exec he hc
  have hlt : u.discards.toNat < 19 := hu.discarded.trans_lt hd
  have hcount : (u.discards + 1).toNat = d + 1 := by
    have := hu.discarded
    bv_omega
  rw [exec_sync_discard hu.receiving hu.phase ho hb hlt] at hstep
  exact ⟨_, hstep, henv, hu.busy, hu.running, hu.receiving, rfl, hcount, hu.unchanged, rfl⟩

theorem Syncing.step_head (h : Syncing i d rb (0xAA :: rx) s) (he : s.env = .cycle c :: rest) (hc : OffersFront c) :
    ∃ t, step s = .next t ∧ t.phase = .body 0 ∧ t.rxcount = 1 ∧ t.rxbuf = rb.set 0 0xAA ∧ t.discards.toNat = d ∧
      t.rxStream = rx ∧ t.busy = true := by
  obtain ⟨u, hstep, -, ho, hu⟩ := h.step_exec he hc
  rw [exec_sync_head hu.receiving hu.phase ho] at hstep
  exact ⟨_, hstep, rfl, rfl, congrArg (·.set 0 0xAA) hu.unchanged, hu.discarded, rfl, hu.busy⟩

theorem Syncing.step_cap (h : Syncing i 19 rb (b :: rx) s) (he : s.env = .cycle c :: rest) (hc : OffersFront c)
    (hb : b ≠ 0xAA) :
    ∃ t, step s = .next t ∧ t.phase = .idle ∧ t.busy = false ∧ t.done = true ∧ t.code = .syncFail ∧
      t.discards.toNat = 20 ∧ t.rxbuf = rb ∧ t.rxStream = rx := by
  obtain ⟨u, hstep, -, ho, hu⟩ := h.step_exec he hc
  rw [exec_sync_cap hu.receiving hu.phase ho hb hu.discarded] at hstep
  exact ⟨_, hstep, rfl, rfl, rfl, rfl, rfl, hu.unchanged, rfl⟩

/-- Noise that stays below the cap is taken byte by byte, and counted. -/
theorem Syncing.runCycles_noise {noise : List Byte} (env : List EnvStep) (cs : List CycleIn)
    (hlen : cs.length = noise.length) (h : Syncing i d rb (noise ++ rx) s) (he : s.env = cs.map EnvStep.cycle ++ env)
    (hc : ∀ c ∈ cs, OffersFront c) (hnoise : ∀ b ∈ noise, b ≠ 0xAA) (hd : d + noise.length ≤ 19) :
    ∃ t, runCycles cs.length s = .next t ∧ t.env = env ∧ Syncing i (d + noise.length) rb rx t := by
  induction noise generalizing cs d s with
  | nil =>
    obtain rfl := List.length_eq_zero_iff.1 hlen
    exact ⟨s, rfl, he, h⟩
  | cons b noise ih =>
    obtain ⟨c, cs, rfl⟩ := List.exists_cons_of_length_eq_add_one hlen
    simp only [List.length_cons] at hlen hd
    obtain ⟨u, hstep, henv, hu⟩ := h.step_discard he (hc c (by simp)) (hnoise b (by simp)) (by omega)
    obtain ⟨t, hrun, htail, ht⟩ := ih cs (by omega) hu henv (fun c hm => hc c (by simp [hm]))
      (fun b hm => hnoise b (by simp [hm])) (by omega)
    refine ⟨t, (runCycles_succ_of_step _ hstep).trans hrun, htail, ?_⟩
    rwa [List.length_cons, Nat.add_comm noise.length 1, ← Nat.add_assoc]

end

/-- A run of the cycles `cs` and one more is the last cycle's step on the state that `cs` reach. -/
theorem runCycles_append_one {s t u : State} {cs : List CycleIn} {c : CycleIn} (h : runCycles cs.length s = .next t)
    (hu : step t = .next u) : runCycles (cs ++ [c]).length s = .next u := by
  rw [List.length_append, runCycles_add _ _ h]
  exact runCycles_succ_of_step 0 hu

/-- Settles O21: the noise below the cap is taken first; then the last cycle takes HEAD, or the 20th noise byte. -/
theorem syncToleratesNineteen : Obligations.SyncToleratesNineteen := by
  intro i s noise rest cs env hb hi hr hp hnoise hcs he
  have hstart : ∀ {rx}, s.rxStream = rx → Syncing i s.discards.toNat s.rxbuf rx s := fun hrx =>
    ⟨hb, hi, hr, hp, rfl, rfl, hrx⟩
  obtain rfl | ⟨cs, c, rfl⟩ := List.eq_nil_or_concat' cs
  · exact ⟨fun _ _ hlen => by simp at hlen, fun _ hne _ hlen => absurd (List.length_eq_zero_iff.1 hlen.symm) hne⟩
  rw [List.map_append, List.append_assoc] at he
  have hc : OffersFront c := hcs c (by simp)
  have hcs' : ∀ c ∈ cs, OffersFront c := fun c hm => hcs c (by simp [hm])
  constructor
  · intro hd hrx hlen
    obtain ⟨t, hrun, henv, ht⟩ := (hstart hrx).runCycles_noise _ cs (by simpa using hlen) he hcs' hnoise hd
    obtain ⟨u, hstep, hu⟩ := ht.step_head henv hc
    exact ⟨u, runCycles_append_one hrun hstep, hu⟩
  · intro hd hne hrx hlen
    obtain ⟨noise, b, rfl⟩ := (List.eq_nil_or_concat' noise).resolve_left hne
    rw [List.append_assoc] at hrx
    simp only [List.length_append, List.length_singleton] at hd hlen
    obtain ⟨t, hrun, henv, ht⟩ := (hstart hrx).runCycles_noise _ cs (by omega) he hcs'
      (fun b hm => hnoise b (by simp [hm])) (by omega)
    rw [show s.discards.toNat + noise.length = 19 by omega] at ht
    obtain ⟨u, hstep, hu⟩ := ht.step_cap henv hc (hnoise b (by simp))
    exact ⟨u, runCycles_append_one hrun hstep, hu⟩

end Sys2Proof.Machine
end

section
/-! SUPPORT. The statements of 42_commands.md: the request and the decode of each command, and a command's run from
DISPATCH to its finish. -/

namespace Sys2Proof

/-! ### The bytes of a half (R14) -/

theorem loByte_eq_ofNat (d : Half) : loByte d = BitVec.ofNat 8 d.toNat := by
  rw [← BitVec.toNat_inj, loByte_toNat, BitVec.toNat_ofNat]

theorem hiByte_eq_ofNat (d : Half) : hiByte d = BitVec.ofNat 8 (d.toNat / 256) := by
  have hd := d.isLt
  rw [← BitVec.toNat_inj, hiByte_toNat, BitVec.toNat_ofNat]
  omega

theorem u16be_eq_ofNat (h l : Byte) : u16be h l = BitVec.ofNat 16 (h.toNat * 256 + l.toNat) := by
  rw [← u16be_toNat, BitVec.ofNat_toNat, BitVec.setWidth_eq]

theorem u16le_eq_ofNat (l h : Byte) : u16le l h = BitVec.ofNat 16 (h.toNat * 256 + l.toNat) := u16be_eq_ofNat h l

end Sys2Proof

namespace Sys2Proof.Machine

/-! ### The request of a command (R160) -/

section
variable {i : Instr} {s : State}

/-- A command is what has a wire command of its own (R86). -/
theorem isCommand_of_requestOf {l : Latch} {c : WireCommand} (h : requestOf i l = some c) : isCommand i = true := by
  cases i with
  | build | send | receive => cases h
  | _ => rfl

theorem transact_eq_requested (cmd : Byte) (p : List Byte) (s : State) : transact cmd p s = Spec.requested cmd p s := rfl

theorem exec_dispatch_request {c : WireCommand} (hp : s.phase = .dispatch) (hq : requestOf i s.latch = some c) :
    exec i s = .next (Spec.requested (commandCode c) (commandPayload c) s) := by
  rw [exec_dispatch hp, startOf_request hq, transact_eq_requested]

theorem requestOf_setWorkingPeriod {l : Latch} (h : l.arg.toNat ≤ 30) :
    requestOf .setWorkingPeriod l = some (.setWorkingPeriod (periodArg l)) := if_pos h

end

/-- Settles O23: the request of the wire command is its frame (R86). -/
theorem commandRequest : Obligations.CommandRequest := fun _ _ _ hp hq => exec_dispatch_request hp hq

/-- Settles O24: the precondition is checked before the build. -/
theorem periodAboveThirtyRefused : Obligations.PeriodAboveThirtyRefused := by
  intro s hp hlong
  have hfails : periodTooLong s.latch = true := decide_eq_true hlong
  rw [exec_dispatch hp, startOf, startSetWorkingPeriod, if_pos hfails, finish_eq_finished]

/-! ### The decode of a valid response (R161 to R170) -/

section
variable {i : Instr} {s : State}

/-- The echo rule, for a comparison that says `p`. -/
theorem finishEcho_eq_finished {echoed : Bool} {p : Prop} [Decidable p] (h : echoed = true ↔ p) (s : State) :
    finishEcho echoed s = Spec.finished (if p then .ok else .logicalMismatch) s.res s := by
  simp only [finishEcho, finish_eq_finished, h]

theorem byteEcho_iff {b : Byte} {d : Half} : (b == loByte d) = true ↔ b.toNat = d.toNat % 256 := by
  rw [beq_iff_eq, ← BitVec.toNat_inj, loByte_toNat]

theorem idEcho_iff {h l : Byte} {d : Half} : (u16be h l == d) = true ↔ h.toNat * 256 + l.toNat = d.toNat := by
  rw [beq_iff_eq, ← BitVec.toNat_inj, u16be_toNat]

/-- The finish with a code and the result registers as a rule gives them. -/
def reported (d : ResultCode × Results) (s : State) : State := Spec.finished d.1 d.2 s

theorem reported_ite {p : Prop} [Decidable p] (d e : ResultCode × Results) (s : State) :
    reported (if p then d else e) s = if p then reported d s else reported e s := apply_ite (reported · s) p d e

/-- What an operation makes of a valid response is the finish with the code and results of its rule. -/
theorem onValidOf_eq_reported (i : Instr) (s : State) :
    onValidOf i s = reported (Spec.decoded i s.latch s.rxbuf s.res) s := by
  cases i with
  | build | send | receive => rfl
  | getSleep =>
    rw [Spec.decoded, reported_ite, reported_ite]
    rfl
  | getMode | getWorkingPeriod =>
    rw [Spec.decoded, reported_ite]
    rfl
  | queryDust =>
    rw [Spec.decoded, reported_ite, ← u16le_eq_ofNat, ← u16le_eq_ofNat]
    rfl
  | firmwareVersion =>
    rw [Spec.decoded, ← u16be_eq_ofNat]
    rfl
  | setSleep => exact finishEcho_eq_finished beq_iff_eq s
  | setMode | setWorkingPeriod => exact finishEcho_eq_finished byteEcho_iff s
  | setId => exact finishEcho_eq_finished idEcho_iff s

/-- No rule reads F[9], the tail. -/
theorem decoded_set_nine (i : Instr) (l : Latch) (f : ResponseFrame) (b : Byte) (r : Results) :
    Spec.decoded i l (f.set 9 b) r = Spec.decoded i l f r := by
  cases i <;> simp [Spec.decoded]

/-- The step of the last byte of a valid frame reports what the operation's rule makes of F[0..8] (R137). -/
theorem exec_lastByte_decoded {b : Byte} {rest : List Byte} (hr : receives i = true) (hp : s.phase = .body 8)
    (ho : Spec.offers s b rest) (hv : responseValid (Spec.fullFrame b s) = true) :
    exec i s = .next (reported (Spec.decoded i s.latch s.rxbuf s.res) (Spec.afterLastByte b rest s)) := by
  obtain ⟨hoff, hs⟩ := ho
  rw [exec_lastByte_valid hr hp hoff hs hv, onValidOf_eq_reported, ← decoded_set_nine i s.latch s.rxbuf b s.res]
  rfl

end

/-! ### The nine commands -/

/-- Settles O25: F[4] separates the three finishes, of which two report OK. -/
theorem getSleepRule : Obligations.GetSleepRule := by
  intro s b rest
  refine ⟨fun hp => exec_dispatch_request (c := .getSleep) hp rfl, fun hp _ ho hv => ?_⟩
  rw [exec_lastByte_decoded rfl hp ho hv, Spec.decoded, reported_ite, reported_ite]
  rfl

/-- Settles O26: the decode is the echo rule on the wire value that was sent. -/
theorem setSleepRule : Obligations.SetSleepRule := fun _ _ _ =>
  ⟨fun hp => exec_dispatch_request (c := .setSleep _) hp rfl, fun hp _ ho hv => exec_lastByte_decoded rfl hp ho hv⟩

/-- Settles O27: F[4] separates the two finishes. -/
theorem getModeRule : Obligations.GetModeRule := by
  intro s b rest
  refine ⟨fun hp => exec_dispatch_request (c := .getMode) hp rfl, fun hp _ ho hv => ?_⟩
  rw [exec_lastByte_decoded rfl hp ho hv, Spec.decoded, reported_ite]
  rfl

/-- Settles O28: the mode on the wire is the low byte of ARG, and so is what the echo is compared with. -/
theorem setModeRule : Obligations.SetModeRule := by
  intro s b rest
  refine ⟨fun hp => ?_, fun hp _ ho hv => exec_lastByte_decoded rfl hp ho hv⟩
  rw [← loByte_eq_ofNat]
  exact exec_dispatch_request (c := .setMode _) hp rfl

/-- Settles O29: the decode has one finish. -/
theorem firmwareVersionRule : Obligations.FirmwareVersionRule := fun _ _ _ =>
  ⟨fun hp => exec_dispatch_request (c := .firmwareVersion) hp rfl, fun hp _ ho hv => exec_lastByte_decoded rfl hp ho hv⟩

/-- Settles O30: RESPONSE_ID separates the two finishes. -/
theorem queryDustRule : Obligations.QueryDustRule := by
  intro s b rest
  refine ⟨fun hp => exec_dispatch_request (c := .queryDust) hp rfl, fun hp _ ho hv => ?_⟩
  have hle (l h : Byte) : l.toNat + 256 * h.toNat = h.toNat * 256 + l.toNat := by omega
  rw [exec_lastByte_decoded rfl hp ho hv, Spec.decoded, reported_ite, hle, hle]
  rfl

/-- Settles O31: the echoed half is the id exactly when its two bytes are those of the id. -/
theorem setIdRule : Obligations.SetIdRule := by
  intro s b rest
  refine ⟨fun hp => ?_, fun hp _ ho hv => ?_⟩
  · rw [← loByte_eq_ofNat, ← hiByte_eq_ofNat]
    exact exec_dispatch_request (c := .setId _) hp rfl
  · have hbytes : (s.rxbuf[6].toNat * 256 + s.rxbuf[7].toNat = s.latch.arg.toNat) ↔
        (s.rxbuf[6].toNat = s.latch.arg.toNat / 256 ∧ s.rxbuf[7].toNat = s.latch.arg.toNat % 256) := by
      have := s.rxbuf[7].isLt
      omega
    rw [exec_lastByte_decoded rfl hp ho hv]
    simp only [Spec.decoded, reported, hbytes]

/-- Settles O32: the precondition separates the DISPATCH step that O24 states from the request. -/
theorem setWorkingPeriodRule : Obligations.SetWorkingPeriodRule := by
  intro s b rest
  refine ⟨fun hp => ?_, fun hp _ ho hv => exec_lastByte_decoded rfl hp ho hv⟩
  split
  · next hlong => exact periodAboveThirtyRefused s hp hlong
  · next hle =>
    rw [← loByte_eq_ofNat]
    exact exec_dispatch_request (c := .setWorkingPeriod _) hp (requestOf_setWorkingPeriod (by omega))

/-- Settles O33: F[4] separates the two finishes. -/
theorem getWorkingPeriodRule : Obligations.GetWorkingPeriodRule := by
  intro s b rest
  refine ⟨fun hp => exec_dispatch_request (c := .getWorkingPeriod) hp rfl, fun hp _ ho hv => ?_⟩
  rw [exec_lastByte_decoded rfl hp ho hv, Spec.decoded, reported_ite]
  rfl

/-! ### A served run (R160, R206) -/

/-- `u` with other ports, window timer and fields of the model's own: what a run of served cycles leaves aside. -/
def withPorts (p : CycleIn) (r : Option Word) (d : Byte) (w n : Nat) (env : List EnvStep) (u : State) : State :=
  { u with pins := p, busRdata := r, txDataOff := d, wtimer := w, cycle := n, env := env }

/-- `t` is `u`, the ports aside, with `env` the listed inputs. -/
def SameButPorts (u : State) (env : List EnvStep) (t : State) : Prop := ∃ p r d w n, t = withPorts p r d w n env u

theorem SameButPorts.refl (s : State) : SameButPorts s s.env s := ⟨_, _, _, _, _, rfl⟩

/-- `n` cycles with a quiet host, in which the channel is open, accepts a byte and offers one, take `u` to `v`, the ports
aside. -/
def ServedRun (n : Nat) (u v : State) : Prop :=
  ∀ s env, SameButPorts u (List.replicate n (.cycle Spec.serveCycle) ++ env) s →
    ∃ t, runCycles n s = .next t ∧ SameButPorts v env t

section
variable {i : Instr} {u v w : State}

theorem ServedRun.of_eq (h : u = v) : ServedRun 0 u v := fun s _ hs => ⟨s, rfl, h ▸ hs⟩

theorem ServedRun.trans {m n : Nat} (h : ServedRun m u v) (h' : ServedRun n v w) : ServedRun (m + n) u w := by
  intro s env hs
  rw [List.replicate_add, List.append_assoc] at hs
  obtain ⟨t, hrun, ht⟩ := h s _ hs
  obtain ⟨t', hrun', ht'⟩ := h' t env ht
  exact ⟨t', (runCycles_add m n hrun).trans hrun', ht'⟩

/-- A served cycle of a running operation is its own cycle on the state with the cycle's ports. -/
theorem step_serveCycle {s : State} {env : List EnvStep} (hi : runningOp s = .ok i) (hp : s.phase ≠ .idle)
    (he : s.env = .cycle Spec.serveCycle :: env) :
    step s = thenEndCycle (exec i { s with pins := Spec.serveCycle, busRdata := none, env := env }) := by
  have hn : nextInputs s = { s with pins := Spec.serveCycle, busRdata := none, env := env } := by
    simp [nextInputs_cycle he, Spec.serveCycle, quietCycle]
  have hact := engineActive_nextInputs_cycle he hp fun _ => rfl
  have hop : runningOp { s with pins := Spec.serveCycle, busRdata := none, env := env } = .ok i := hi
  rw [step_without_access hn (hn ▸ hact) rfl rfl rfl rfl, engineCycle, hop]

/-- A served cycle takes `u` to `v` when the operation's cycle does, whatever the fields are that the run leaves aside. -/
theorem ServedRun.of_exec (hi : runningOp u = .ok i) (hp : u.phase ≠ .idle)
    (h : ∀ d w n env, ∃ w', exec i (withPorts Spec.serveCycle none d w n env u) =
      .next (withPorts Spec.serveCycle none d w' n env v)) : ServedRun 1 u v := by
  rintro _ env ⟨p, r, d, w, n, rfl⟩
  obtain ⟨w', hexec⟩ := h d w n env
  have hstep : step (withPorts p r d w n (.cycle Spec.serveCycle :: env) u) =
      thenEndCycle (exec i (withPorts Spec.serveCycle none d w n env u)) := step_serveCycle hi hp rfl
  rw [hexec] at hstep
  exact ⟨_, runCycles_succ_of_step 0 hstep, _, _, _, _, _, rfl⟩

/-! ### The cycles of a served run -/

theorem servedRun_dispatch {c : WireCommand} (hi : runningOp u = .ok i) (hp : u.phase = .dispatch)
    (hq : requestOf i u.latch = some c) :
    ServedRun 1 u { u with txbuf := encodeCommand c u.latch.dest, txv := true, phase := .tx 0 } :=
  .of_exec hi (by simp [hp]) fun _ _ _ _ => ⟨_, exec_dispatch_request hp hq⟩

theorem servedRun_tx_advance {k : Nat} (hk : k + 1 < 19) (hi : runningOp u = .ok i) (ht : transmits i = true)
    (hp : u.phase = .tx ⟨k, by omega⟩) :
    ServedRun 1 u { u with txStream := u.txStream ++ [u.txbuf[k]], phase := .tx ⟨k + 1, hk⟩ } :=
  .of_exec hi (by simp [hp]) fun _ _ _ _ => ⟨_, exec_tx_advance hk ht hp rfl⟩

theorem servedRun_tx_last (hi : runningOp u = .ok i) (hc : isCommand i = true) (hp : u.phase = .tx 18) :
    ServedRun 1 u { u with txStream := u.txStream ++ [u.txbuf[18]], rxbuf := Vector.replicate 10 0, rxcount := 0,
                           discards := 0, phase := .sync } :=
  .of_exec hi (by simp [hp]) fun _ _ _ _ => ⟨_, receivePhaseStarts.2 i _ hc hp rfl⟩

variable {b : Byte} {rx : List Byte}

theorem servedRun_discard (hi : runningOp u = .ok i) (hr : receives i = true) (hp : u.phase = .sync)
    (hs : u.rxStream = b :: rx) (hb : b ≠ 0xAA) (hd : u.discards.toNat < 19) :
    ServedRun 1 u { u with rxStream := rx, discards := u.discards + 1, phase := .sync } :=
  .of_exec hi (by simp [hp]) fun _ _ _ _ => ⟨_, exec_sync_discard hr hp ⟨rfl, hs⟩ hb hd⟩

theorem servedRun_head (hi : runningOp u = .ok i) (hr : receives i = true) (hp : u.phase = .sync)
    (hs : u.rxStream = 0xAA :: rx) :
    ServedRun 1 u { u with rxStream := rx, rxbuf := u.rxbuf.set 0 0xAA, rxcount := 1, phase := .body 0 } :=
  .of_exec hi (by simp [hp]) fun _ _ _ _ => ⟨_, exec_sync_head hr hp ⟨rfl, hs⟩⟩

theorem servedRun_body {k : Nat} (hk : k < 8) (hi : runningOp u = .ok i) (hr : receives i = true)
    (hp : u.phase = .body ⟨k, by omega⟩) (hs : u.rxStream = b :: rx) :
    ServedRun 1 u { u with rxStream := rx, rxbuf := u.rxbuf.set (k + 1) b, rxcount := BitVec.ofNat 4 (k + 2),
                           phase := .body ⟨k + 1, by omega⟩ } :=
  .of_exec hi (by simp [hp]) fun _ _ _ _ => ⟨_, exec_body_byte hk hr hp ⟨rfl, hs⟩⟩

theorem servedRun_body_last (hi : runningOp u = .ok i) (hr : receives i = true) (hp : u.phase = .body 8)
    (hs : u.rxStream = b :: rx) (hv : responseValid (u.rxbuf.set 9 b) = true) :
    ServedRun 1 u (reported (Spec.decoded i u.latch u.rxbuf u.res)
      { u with rxStream := rx, rxbuf := u.rxbuf.set 9 b, rxcount := 10 }) :=
  .of_exec hi (by simp [hp]) fun _ _ _ _ => ⟨_, exec_lastByte_decoded hr hp ⟨rfl, hs⟩ hv⟩

/-! ### The phases of a served run -/

/-- The first `k` cycles of a write phase send the first `k` bytes of TXBUF (R116). -/
theorem servedRun_tx (hi : runningOp u = .ok i) (ht : transmits i = true) (hp : u.phase = .tx 0) {k : Nat} (hk : k < 19) :
    ServedRun k u { u with txStream := u.txStream ++ u.txbuf.toList.take k, phase := .tx ⟨k, hk⟩ } := by
  induction k with
  | zero => exact .of_eq (by simp [← hp])
  | succ k ih =>
    have hsent : u.txbuf.toList.take (k + 1) = u.txbuf.toList.take k ++ [u.txbuf[k]] := by
      simp [List.take_add_one, Nat.lt_of_succ_lt hk]
    rw [hsent, ← List.append_assoc]
    exact (ih (by omega)).trans (servedRun_tx_advance hk hi ht rfl)

/-- A command's write phase, up to the sync window that opens in its last cycle (R130). -/
theorem servedRun_write (hi : runningOp u = .ok i) (hc : isCommand i = true) (hp : u.phase = .tx 0) :
    ServedRun 19 u { u with txStream := u.txStream ++ u.txbuf.toList, rxbuf := Vector.replicate 10 0, rxcount := 0,
                            discards := 0, phase := .sync } := by
  have ht : transmits i = true := by simp [transmits, hc]
  have hsent : u.txbuf.toList = u.txbuf.toList.take 18 ++ [u.txbuf[18]] := by
    rw [commandFrame_toList]
    rfl
  rw [hsent, ← List.append_assoc]
  exact (servedRun_tx hi ht hp (by decide)).trans (servedRun_tx_last hi hc rfl)

/-- Noise that stays below the cap is discarded and counted (R132, R133). -/
theorem servedRun_noise {noise : List Byte} (hi : runningOp u = .ok i) (hr : receives i = true) (hp : u.phase = .sync)
    (hs : u.rxStream = noise ++ rx) (hnoise : ∀ b ∈ noise, b ≠ 0xAA) (hd : u.discards.toNat + noise.length ≤ 19) :
    ServedRun noise.length u { u with rxStream := rx, discards := u.discards + BitVec.ofNat 5 noise.length,
                                      phase := .sync } := by
  induction noise generalizing u with
  | nil =>
    rw [List.nil_append] at hs
    exact .of_eq (by simp [← hp, ← hs])
  | cons b noise ih =>
    simp only [List.length_cons] at hd
    have hcount : (u.discards + 1).toNat = u.discards.toNat + 1 := by bv_omega
    have htail := ih (u := { u with rxStream := noise ++ rx, discards := u.discards + 1, phase := .sync }) hi rfl rfl
      (fun b hm => hnoise b (by simp [hm])) (by simp only [hcount]; omega)
    have hone := servedRun_discard hi hr hp hs (hnoise b (by simp)) (by omega)
    rw [List.length_cons, Nat.add_comm, BitVec.ofNat_add, ← BitVec.add_assoc]
    exact hone.trans htail

/-- The first `n` bytes of `f`, and 0 beyond them: what RXBUF holds of `f` when `n` bytes of it are captured. -/
def captured (f : ResponseFrame) (n : Nat) : ResponseFrame := Vector.ofFn fun j => if j.val < n then f[j] else 0

theorem captured_zero (f : ResponseFrame) : captured f 0 = Vector.replicate 10 0 := by
  ext j hj
  simp [captured]

theorem captured_ten (f : ResponseFrame) : captured f 10 = f := by
  apply Vector.ext
  simp +contextual [captured]

theorem captured_set (f : ResponseFrame) {n : Nat} (hn : n < 10) : (captured f n).set n f[n] = captured f (n + 1) := by
  apply Vector.ext
  intro j hj
  by_cases h : n = j
  · simp [captured, h]
  · have hle : j ≤ n ↔ j < n := by omega
    simp [captured, h, hle]

variable {f : ResponseFrame} {later : List Byte}

theorem response_drop {n : Nat} (hn : n < 10) :
    f.toList.drop n ++ later = f[n] :: (f.toList.drop (n + 1) ++ later) := by
  rw [List.drop_eq_getElem_cons (by simpa using hn), List.cons_append, Vector.getElem_toList]

/-- The first `k` cycles after HEAD capture the body bytes F[1..k] (R134). -/
theorem servedRun_bodyBytes (hi : runningOp u = .ok i) (hr : receives i = true) (hp : u.phase = .body 0)
    (hs : u.rxStream = f.toList.drop 1 ++ later) (hrb : u.rxbuf = captured f 1) (hn : u.rxcount = BitVec.ofNat 4 1)
    {k : Nat} (hk : k < 9) :
    ServedRun k u { u with rxStream := f.toList.drop (k + 1) ++ later, rxbuf := captured f (k + 1),
                           rxcount := BitVec.ofNat 4 (k + 1), phase := .body ⟨k, hk⟩ } := by
  induction k with
  | zero =>
    have hphase : Phase.body ⟨0, hk⟩ = u.phase := hp.symm
    rw [Nat.zero_add, ← hs, ← hrb, ← hn, hphase]
    exact .of_eq rfl
  | succ k ih =>
    rw [← captured_set f (show k + 1 < 10 by omega)]
    exact (ih (by omega)).trans (servedRun_body (by omega) hi hr rfl (response_drop (by omega)))

/-- Noise below the cap, then HEAD, which is captured (R132). -/
theorem servedRun_sync {noise : List Byte} (hi : runningOp u = .ok i) (hr : receives i = true) (hp : u.phase = .sync)
    (hrb : u.rxbuf = Vector.replicate 10 0) (hd : u.discards = 0) (hs : u.rxStream = noise ++ (f.toList ++ later))
    (hnoise : ∀ b ∈ noise, b ≠ 0xAA) (hlen : noise.length ≤ 19) (hf : f[0] = 0xAA) :
    ServedRun (noise.length + 1) u { u with rxStream := f.toList.drop 1 ++ later, rxbuf := captured f 1, rxcount := 1,
                                            discards := BitVec.ofNat 5 noise.length, phase := .body 0 } := by
  have hfirst : captured f 1 = u.rxbuf.set 0 0xAA := by rw [hrb, ← captured_zero f, ← hf, captured_set f (by decide)]
  have hhead : f.toList ++ later = 0xAA :: (f.toList.drop 1 ++ later) := hf ▸ response_drop (n := 0) (by decide)
  have hcount : BitVec.ofNat 5 noise.length = u.discards + BitVec.ofNat 5 noise.length := by rw [hd]; simp
  rw [hfirst, hcount]
  exact (servedRun_noise hi hr hp hs hnoise (by simpa [hd] using hlen)).trans (servedRun_head hi hr rfl hhead)

/-- The nine body bytes of a valid frame, and the finish that reports it (R137). -/
theorem servedRun_response (hi : runningOp u = .ok i) (hr : receives i = true) (hp : u.phase = .body 0)
    (hs : u.rxStream = f.toList.drop 1 ++ later) (hrb : u.rxbuf = captured f 1) (hn : u.rxcount = BitVec.ofNat 4 1)
    (hv : responseValid f = true) :
    ServedRun 9 u (reported (Spec.decoded i u.latch f u.res) { u with rxStream := later, rxbuf := f, rxcount := 10 }) := by
  have hfull : (captured f 9).set 9 f[9] = f := (captured_set f (by decide)).trans (captured_ten f)
  have htail : f.toList.drop 9 ++ later = f[9] :: later := by
    rw [response_drop (by decide), List.drop_of_length_le (by simp), List.nil_append]
  have hlast := (servedRun_bodyBytes (k := 8) hi hr hp hs hrb hn (by decide)).trans
    (servedRun_body_last (by exact hi) hr rfl htail (by simp only [hfull, hv]))
  rw [hfull, ← decoded_set_nine i _ (captured f 9) f[9], hfull] at hlast
  exact hlast

end

/-- Settles O34: the request, the write phase, the noise with HEAD, and the rest of the frame follow each other, and no part
of the run looks at the window timer, which a served cycle never lets expire. -/
theorem commandRunsToFinish : Obligations.CommandRunsToFinish := by
  intro i s c noise later f env _ hi hp hq hlen hnoise hf hv hrx he
  have hc : isCommand i = true := isCommand_of_requestOf hq
  have hr : receives i = true := by simp [receives, hc]
  rw [List.append_assoc] at hrx
  -- `by exact hi` waits for the state that the part of the run begins with; its L_OP is that of `s`.
  have hwritten := (servedRun_dispatch hi hp hq).trans (servedRun_write (by exact hi) hc rfl)
  have hsynced := hwritten.trans (servedRun_sync (by exact hi) hr rfl rfl rfl hrx hnoise hlen hf)
  have hdone := hsynced.trans (servedRun_response (by exact hi) hr rfl rfl rfl rfl hv)
  rw [show 30 + noise.length = 1 + 19 + (noise.length + 1) + 9 by omega] at he ⊢
  obtain ⟨t, hrun, p, r, d, w, n, rfl⟩ := hdone s env (he ▸ .refl s)
  have hcount : (BitVec.ofNat 5 noise.length).toNat = noise.length := Nat.mod_eq_of_lt (by omega)
  exact ⟨_, hrun, rfl, rfl, rfl, rfl, rfl, rfl, rfl, rfl, rfl, hcount, rfl, rfl, rfl, rfl, rfl⟩

end Sys2Proof.Machine
end

section
/-! SUPPORT. The statements of 60_exceptions.md: no cycle stops the block, the op codes that are no operation, the interrupt
line, and the result codes. -/

namespace Sys2Proof.Machine

/-! ### A cycle of a running operation (R41) -/

section
variable {s : State}

/-- The inputs of a cycle reach no flag, no phase and no register of the host (R20). -/
theorem nextInputs_keeps (s : State) :
    (nextInputs s).phase = s.phase ∧ (nextInputs s).busy = s.busy ∧ (nextInputs s).done = s.done ∧
      (nextInputs s).cfg = s.cfg := by
  obtain ⟨p, rx, e, w, n, h, -⟩ := nextInputs_eq s
  rw [h]
  exact ⟨rfl, rfl, rfl, rfl⟩

theorem phase_ne_idle_of_engineActive (h : engineActive s = true) : s.phase ≠ .idle := by
  intro hp
  simp [engineActive, hp] at h

/-- The host's access of a running operation's cycle leaves the phase. -/
theorem hostAccess_phase_of_busy (hb : s.busy = true) : (hostAccess s).phase = s.phase := by
  obtain ⟨d, k, c, r, h, -⟩ := hostAccess_busy hb
  rw [h]

/-! ### No cycle stops the block (R202, R204) -/

/-- Past its DISPATCH step, a running operation has a meaning in the phase it stands in: its cycle answers a next state. -/
theorem exec_answers_past_dispatch (h : Inv s) (hp : s.phase ≠ .idle) (hd : s.phase ≠ .dispatch) :
    ∃ i t, runningOp s = .ok i ∧ exec i s = .next t := by
  cases hph : s.phase with
  | idle => exact absurd hph hp
  | dispatch => exact absurd hph hd
  | tx k =>
    obtain ⟨-, i, hi, ht⟩ := h.txPhase (State.inTx_iff.2 ⟨k, hph⟩)
    exact ⟨i, _, hi, exec_tx ht hph⟩
  | sync =>
    obtain ⟨i, hi, hr⟩ := h.rxPhase (State.inWindow_iff.2 (.inl hph))
    exact ⟨i, _, hi, exec_sync hr hph⟩
  | body k =>
    obtain ⟨i, hi, hr⟩ := h.rxPhase (State.inWindow_iff.2 (.inr ⟨k, hph⟩))
    exact ⟨i, _, hi, exec_body hr hph⟩

/-- In DISPATCH, an L_OP that is no operation finishes ILLEGAL_OP (R92, R201). -/
theorem engineCycle_illegalOp (hp : s.phase = .dispatch) (hn : ∀ i, runningOp s ≠ .ok i) :
    engineCycle s = .next (finish .illegalOp s) := by
  cases hop : runningOp s with
  | ok i => exact absurd hop (hn i)
  | error e => simp [engineCycle, hop, illegalOpCycle, hp]

/-- The engine's cycle answers a next state while the block is not idle: in DISPATCH for every L_OP, and past it for the
operation that the invariant finds there. -/
theorem engineCycle_answers (h : Inv s) (hp : s.phase ≠ .idle) : ∃ t, engineCycle s = .next t := by
  have hrun : ∀ {i t}, runningOp s = .ok i → exec i s = .next t → engineCycle s = .next t := fun hi ht => by
    simp [engineCycle, hi, ht]
  by_cases hd : s.phase = .dispatch
  · by_cases hop : ∃ i, runningOp s = .ok i
    · obtain ⟨i, hi⟩ := hop
      exact ⟨_, hrun hi (exec_dispatch hd)⟩
    · exact ⟨_, engineCycle_illegalOp hd (not_exists.1 hop)⟩
  · obtain ⟨i, t, hi, ht⟩ := exec_answers_past_dispatch h hp hd
    exact ⟨t, hrun hi ht⟩

end

/-- Settles O59: only the engine's cycle could stop the block, and the host's access before it leaves the invariant and the
phase. -/
theorem wellFormedStepNeverStops : Obligations.WellFormedStepNeverStops := by
  intro s h
  unfold SafeStep step
  split
  · next hl =>
    have hinv : Inv (nextInputs s) := nextInputs_inv h hl
    split
    · next ha =>
      have hp : (nextInputs s).phase ≠ .idle := phase_ne_idle_of_engineActive ha
      have hp' : (hostAccess (nextInputs s)).phase ≠ .idle := by
        rwa [hostAccess_phase_of_busy (hinv.busyIff.2 hp)]
      obtain ⟨t, ht⟩ := engineCycle_answers (hostAccess_inv hinv hl) hp'
      exact ⟨endCycle t, by rw [ht]; rfl⟩
    · exact ⟨_, rfl⟩
  · exact ⟨_, rfl⟩

/-! ### An op code that is no operation (R92, R201) -/

/-- Settles O48: the host's access leaves DISPATCH and L_OP, so the engine's cycle is the finish with ILLEGAL_OP. -/
theorem unlistedOpFinishesIllegal : Obligations.UnlistedOpFinishesIllegal := by
  intro s c rest hb hp hn he hr hh
  have hin := nextInputs_cycle he
  obtain ⟨d, k, cf, r, hacc, -⟩ := hostAccess_busy (s := nextInputs s) (by rw [hin]; exact hb)
  have hdisp : (hostAccess (nextInputs s)).phase = .dispatch := by rw [hacc, hin]; exact hp
  have hop : ∀ i, runningOp (hostAccess (nextInputs s)) ≠ .ok i := by
    rw [runningOp_hostAccess_nextInputs hb]; exact hn
  have hstep : step s = .next (endCycle (finish .illegalOp (hostAccess (nextInputs s)))) := by
    have hrst : (nextInputs s).pins.rstN = true := by rw [hin]; exact hr
    have hact := engineActive_nextInputs_cycle he (by simp [hp]) fun _ => hh
    simp [step, hrst, hact, engineCycle_illegalOp hdisp hop, thenEndCycle]
  refine ⟨hostRead (nextInputs s), _, readData_hostRead he, hstep, ?_, ?_⟩
  · have hres : (hostAccess (nextInputs s)).res = s.res := by rw [hacc, hin]
    rw [← hostAccess_nextInputs_cycle he, ← hres]
    rfl
  · rw [hacc, hin]
    exact ⟨rfl, rfl, rfl, rfl, rfl, rfl, rfl⟩

/-! ### The flags of the interrupt line (R210) -/

/-- A host write above IRQ_EN's index leaves DONE and DONE_IE (R29, R31). -/
theorem writeReg_keeps_irq {a : BitVec 8} (ha : 2 < a.toNat / 4) (v : Word) (s : State) :
    (writeReg a v s).done = s.done ∧ (writeReg a v s).cfg.doneIe = s.cfg.doneIe := by
  rcases hostReg_index a with hr | hr
  · rw [writeReg_reserved hr]
    exact ⟨rfl, rfl⟩
  · rw [← hr] at ha
    unfold writeReg
    cases hreg : hostReg a
    case go | status | irqEn => simp [hreg, regIndex] at ha
    all_goals exact ⟨rfl, rfl⟩

section
variable {s t : State}

theorem hostAccess_keeps_irq (hw : s.pins.busWe = true → 2 < s.pins.busAddr.toNat / 4) :
    (hostAccess s).done = s.done ∧ (hostAccess s).cfg.doneIe = s.cfg.doneIe := by
  unfold hostAccess
  split
  · next h => exact writeReg_keeps_irq (hw h) _ s
  · exact ⟨rfl, rfl⟩

/-- No host access sets DONE (R29, R30). -/
theorem done_of_hostAccess_done (h : (hostAccess s).done = true) : s.done = true := by
  unfold hostAccess at h
  split at h
  · rcases writeHostReg_cases (hostReg s.pins.busAddr) s.pins.busWdata s with ⟨c, e⟩ | ⟨-, e⟩ | ⟨-, -, e⟩ | ⟨-, -, e⟩ <;>
      rw [writeReg, e] at h
    · exact h
    · exact (Bool.and_eq_true_iff.1 h).1
    · exact h
    · cases h
  · exact h

/-- No host access changes the ports. -/
theorem hostAccess_pins (s : State) : (hostAccess s).pins = s.pins := by
  unfold hostAccess
  split
  · rcases writeHostReg_cases (hostReg s.pins.busAddr) s.pins.busWdata s with ⟨c, e⟩ | ⟨-, e⟩ | ⟨-, -, e⟩ | ⟨-, -, e⟩ <;>
      rw [writeReg, e] <;> rfl
  · rfl

theorem engineCycle_pins (h : engineCycle s = .next t) : t.pins = s.pins := by
  rcases engineCycle_next_cases h with ⟨i, -, hx⟩ | ⟨-, -, rfl⟩
  · obtain ⟨-, -, -, -, hpins, -⟩ := exec_outside hx
    exact hpins
  · rfl

/-- An engine cycle ends the operation, or it leaves DONE (R205). -/
theorem engineCycle_finishes_or_keeps_done (h : engineCycle s = .next t) : t.phase = .idle ∨ t.done = s.done := by
  rcases engineCycle_next_cases h with ⟨i, -, hx⟩ | ⟨-, -, rfl⟩
  · rcases exec_finishes_or_goes_on hx with ⟨hp, -⟩ | ⟨-, -, hd, -⟩
    · exact .inl hp
    · exact .inr hd
  · exact .inl rfl

/-! ### The flags of the interrupt line over a cycle -/

/-- The ports after a cycle are its inputs. -/
theorem step_pins (h : step s = .next t) : t.pins = (nextInputs s).pins := by
  rcases step_next_cases h with ⟨-, rfl⟩ | ⟨-, -, rfl⟩ | ⟨-, -, u, hu, rfl⟩
  · rfl
  · exact hostAccess_pins _
  · exact (engineCycle_pins hu).trans (hostAccess_pins _)

/-- DONE after a cycle was there before it, or the cycle has finished the operation (R205). -/
theorem done_or_finishes_of_step (h : step s = .next t) (hd : t.done = true) :
    s.done = true ∨ (s.phase ≠ .idle ∧ t.phase = .idle) := by
  obtain ⟨hphase, -, hdone, -⟩ := nextInputs_keeps s
  rcases step_next_cases h with ⟨-, rfl⟩ | ⟨-, -, rfl⟩ | ⟨-, ha, u, hu, rfl⟩
  · cases hd
  · exact .inl (hdone ▸ done_of_hostAccess_done hd)
  · rcases engineCycle_finishes_or_keeps_done hu with hp | hk
    · exact .inr ⟨hphase ▸ phase_ne_idle_of_engineActive ha, hp⟩
    · exact .inl (hdone ▸ done_of_hostAccess_done (hk ▸ hd))

/-- A cycle of an idle block without reset leaves DONE and DONE_IE, unless the host writes GO, STATUS or IRQ_EN. -/
theorem step_idle_keeps_irq (hp : s.phase = .idle) (h : step s = .next t) (hr : t.pins.rstN = true)
    (hw : t.pins.busWe = true → 2 < t.pins.busAddr.toNat / 4) :
    t.done = s.done ∧ t.cfg.doneIe = s.cfg.doneIe := by
  obtain ⟨hphase, -, hdone, hcfg⟩ := nextInputs_keeps s
  rw [step_pins h] at hr hw
  rcases step_next_cases h with ⟨hl, -⟩ | ⟨-, -, rfl⟩ | ⟨-, ha, -⟩
  · simp [hr] at hl
  · rw [← hdone, ← hcfg]
    exact hostAccess_keeps_irq hw
  · exact absurd (hphase.trans hp) (phase_ne_idle_of_engineActive ha)

/-- A cycle without reset that ends the running operation sets DONE (R205). -/
theorem step_finish_done (hb : s.busy = true) (hp : s.phase ≠ .idle) (h : step s = .next t) (ht : t.phase = .idle)
    (hr : t.pins.rstN = true) : t.done = true := by
  obtain ⟨hphase, hbusy, -⟩ := nextInputs_keeps s
  obtain ⟨u, hu, rfl⟩ := step_to_idle (hbusy.trans hb) (hphase ▸ hp) (step_pins h ▸ hr) h ht
  exact engineCycle_done (t := u) hu ht

end

/-- Settles O54: `irq` is DONE and DONE_IE before and after the cycle; only a finish sets DONE, and where DONE is 1 the block
is idle, so the host's access or reset is all that can clear either. -/
theorem irqRisesAndFalls : Obligations.IrqRisesAndFalls := by
  intro s t h hs
  have hinv : Inv t := stepKeepsInv s t h hs
  rw [h.irq_eq, hinv.irq_eq]
  refine ⟨fun hlow hhigh => ?rises, fun hhigh hlow => ?falls, fun hp ht hr => ?finishes⟩
  case rises =>
    obtain ⟨hdone, hie⟩ := Bool.and_eq_true_iff.1 hhigh
    refine ⟨hie, (done_or_finishes_of_step hs hdone).symm.imp_right fun hd => ⟨hd, hdone, ?_⟩⟩
    simpa [hd] using hlow
  case falls =>
    obtain ⟨hdone, hie⟩ := Bool.and_eq_true_iff.1 hhigh
    have hidle : s.phase = .idle := by
      by_contra hp
      simp [(h.busyFlags (h.busyIff.2 hp)).1] at hdone
    by_contra hcause
    obtain ⟨hrst, hacc⟩ := not_or.1 hcause
    obtain ⟨hd, hi⟩ := step_idle_keeps_irq hidle hs (by simpa using hrst) fun hw => by
      by_contra hle
      exact hacc ⟨hw, by omega⟩
    simp [hd, hi, hdone, hie] at hlow
  case finishes => simp [step_finish_done (h.busyIff.2 hp) hp hs ht hr]

/-! ### The result codes (R200) -/

/-- CODE is bits [11:8] of STATUS (R29). -/
theorem status_codeField (s : State) : ((readReg 0x04 s).extractLsb' 8 4).toNat = s.code.bits.toNat := by
  obtain ⟨hstatus, -⟩ := statusAndRxinfoFields s
  rw [BitVec.extractLsb'_toNat, hstatus, Nat.shiftRight_eq_div_pow]
  have := s.busy.toNat_lt
  have := s.done.toNat_lt
  have := s.collide.toNat_lt
  have := s.code.bits.isLt
  omega

/-- Settles O44: each code's bits are its number. -/
theorem resultCodeValues : Obligations.ResultCodeValues := by
  intro c s
  refine ⟨rfl, ?_⟩
  rw [status_codeField, finish_code]
  cases c <;> rfl

end Sys2Proof.Machine
end

section
/-! SUPPORT. The statements of 70_reset_and_hazards.md: the reset cycle, the cycles in which the engine has no step, and what
no command takes from the operations before it. -/

namespace Sys2Proof.Machine

/-! ### Reset (R230 to R232) -/

/-- Settles O57: the state after reset is what a reset cycle leaves, but for fields that the invariant says nothing of. -/
theorem resetMeetsInv : Obligations.ResetMeetsInv := fun _ _ =>
  (resetCycle_inv (s := State.reset) Config.rxTimeoutParam.pos).of_outside (d := false) (w := 0) id id (Nat.zero_le _)

section
variable {s : State}

/-- A cycle with `rst_n` = 0 is a reset cycle, whatever runs and whatever the host asks (R230). -/
theorem step_reset (hr : (nextInputs s).pins.rstN = false) : step s = .next (resetCycle (nextInputs s)) := by
  simp [step, hr]

/-- While `rst_n` = 0 the three output levels are 0 (R230). -/
theorem outputs_low_in_reset (hr : s.pins.rstN = false) : s.txValid = false ∧ s.rxReady = false ∧ s.irq = false := by
  simp [State.txValid, State.rxReady, State.irq, hr]

/-- A read alone in a reset cycle returns the register's reset value (R230). -/
theorem resetCycle_busRdata (hre : s.pins.busRe = true) (hwe : s.pins.busWe = false) :
    (resetCycle s).busRdata = some (readReg s.pins.busAddr State.reset) := by
  simp only [resetCycle, hostRead, hre, hwe]
  rfl

end

/-- Settles O49: the block's elements are those of the state after reset; the read and the levels are a reset cycle's, and the
streams are as the cycle's inputs left them. -/
theorem resetCycleRestores : Obligations.ResetCycleRestores := by
  intro s c rest he hr
  have hn := nextInputs_cycle he
  have hpins : (nextInputs s).pins = c := by rw [hn]
  have hrst : (nextInputs s).pins.rstN = false := by rw [hpins, hr]
  obtain ⟨hvalid, hready, hirq⟩ := outputs_low_in_reset (s := resetCycle (nextInputs s)) hrst
  refine ⟨_, step_reset hrst, rfl, rfl, rfl, rfl, rfl, rfl, rfl, rfl, rfl, rfl, rfl, rfl, rfl, rfl, hvalid, hready, hirq, rfl,
    rfl, fun hre hwe => ?read, ?sent, ?held⟩
  case read => rw [resetCycle_busRdata (by rw [hpins, hre]) (by rw [hpins, hwe]), hpins, resetRegisterValues]
  case sent => rw [hn]; rfl
  case held => rw [hn]; rfl

/-! ### A cycle without an engine step (R41, R233) -/

section
variable {s : State} {c : CycleIn} {rest : List EnvStep}

/-- The engine has no step in IDLE, and none in DISPATCH while the step is put off (R41). -/
theorem engineActive_eq_false (h : s.phase = .idle ∨ (s.phase = .dispatch ∧ s.pins.dispatchHold = true)) :
    engineActive s = false := by
  rcases h with hp | ⟨hp, hh⟩
  · simp [engineActive, hp]
  · simp [engineActive, hp, hh]

/-- A listed cycle without reset and without an engine step is the host's access alone (R69). -/
theorem step_host_alone (ha : engineActive (nextInputs s) = false) (he : s.env = .cycle c :: rest) (hr : c.rstN = true) :
    ∃ r, Spec.readData c r s ∧ step s = .next (Spec.cycleEnded (Spec.accessed c rest r s)) := by
  have hrst : (nextInputs s).pins.rstN = true := by rw [nextInputs_cycle he]; exact hr
  refine ⟨hostRead (nextInputs s), readData_hostRead he, ?_⟩
  rw [← hostAccess_nextInputs_cycle he]
  simp only [step, hrst, ha]
  rfl

/-- Without an access of the host the cycle has no read data, and only the inputs are taken. -/
theorem accessed_without_access {r : Option Word} (hwe : c.busWe = false) (hre : c.busRe = false)
    (h : Spec.readData c r s) :
    Spec.accessed c rest r s =
      { s with pins := c, rxStream := s.rxStream ++ c.rxArrive, busRdata := none, env := rest } := by
  obtain rfl : r = none := by simpa [Spec.readData, hre] using h
  exact if_neg (by simp [hwe])

end

/-- Settles O51: the engine has no step in either phase, so the host's access is the cycle, and without one nothing acts. -/
theorem idleBlockWaits : Obligations.IdleBlockWaits := by
  intro s c rest hp he hr
  have ha : engineActive (nextInputs s) = false := engineActive_eq_false (by rw [nextInputs_cycle he]; exact hp)
  obtain ⟨r, hread, hstep⟩ := step_host_alone ha he hr
  exact ⟨⟨r, hread, hstep⟩, fun hwe hre => by rw [hstep, accessed_without_access hwe hre hread]⟩

/-! ### No command depends on the operations before it (R235) -/

/-- A request builds its own frame and sets TXV itself (R160). -/
theorem requested_ignores_txbuf (cmd : Byte) (p : List Byte) (s : State) (tb : CommandFrame) (tv : Bool) :
    Spec.requested cmd p { s with txbuf := tb, txv := tv } = Spec.requested cmd p s := rfl

/-- Settles O35: the request replaces TXBUF and TXV, and the start of a receive phase clears RXBUF and the counters and sets
the timer. -/
theorem commandsIgnoreEarlierFrames : Obligations.CommandsIgnoreEarlierFrames := by
  intro i s tb tv rb n d w hc
  obtain ⟨-, hstarts⟩ := receivePhaseStarts
  refine ⟨fun hp hq => ?request, fun hp hr => ?receive⟩
  case request =>
    obtain ⟨q, hreq⟩ := Option.ne_none_iff_exists'.1 hq
    rw [exec_dispatch_request hp hreq, ← requested_ignores_txbuf _ _ s tb tv]
    exact exec_dispatch_request hp hreq
  case receive =>
    rw [hstarts i s hc hp hr]
    exact hstarts i _ hc hp hr

end Sys2Proof.Machine
end
